-- ==== Sys2Proof/Word.lean ====
section
/-! DEFINITION. The widths of the CORE: bytes, CPU addresses, PPU addresses, the VRAM address registers, colours
(R6, R7, R49). -/

namespace Sys2Proof

/-- The data word of the CORE: A, X, Y, SP and every memory byte (R6). -/
abbrev Byte := BitVec 8

/-- A CPU address (R6, R70). -/
abbrev Addr := BitVec 16

/-- An address of the PPU's own 14-bit space (R94). -/
abbrev PpuAddr := BitVec 14

/-- The PPU registers v and t (R49, R458). -/
abbrev VramReg := BitVec 15

/-- A palette entry: an index into the 64-colour master palette (R98, R457). -/
abbrev Colour := BitVec 6

end Sys2Proof
end

