-- ==== Sys2Proof/Config.lean ====
section
/-! DEFINITION. What is fixed for one machine: the named parameters of R6 (plain data, held in State), and the
values the spec leaves free, as constants with no body. -/

namespace Sys2Proof

/-- `OpenBus()` (R79, D14): the n-th draw of a run. Any byte, under no law. Free value, log entry 6. -/
opaque Config.openBus : Nat → Byte

/-- `UNSTABLE_MAGIC` (R6, R366, D4): an OPEN byte parameter. Free value, log entry 8. -/
opaque Config.unstableMagic : Byte

/-- `NES_PALETTE` (R457, D37): the red, green and blue bytes of each of the 64 colours, an OPEN parameter. Free
value, log entry 9. -/
opaque Config.nesPalette : Colour → Byte × Byte × Byte

/-- `UNSTABLE_MODE` (R6, R366, D4). -/
inductive UnstableMode where
  | refuse
  | nmos
deriving DecidableEq, Repr

/-- `PRG_RAM_MODE` (R6, R76, D16). -/
inductive PrgRamMode where
  | ram
  | stub
deriving DecidableEq, Repr

/-- `FB_HEIGHT` (R6, R456, D36). -/
inductive FbHeight where
  | h240
  | h224
deriving DecidableEq, Repr

/-- The named parameters the model takes as arguments (R6, 92_eei_decisions.md). Log entry 11. -/
structure Params where
  unstableMode : UnstableMode
  prgRamMode   : PrgRamMode
  renderDot    : Fin 341
  s0NeedsBg    : Bool
  fbHeight     : FbHeight
deriving DecidableEq, Repr

/-- The parameters in `State.reset`: the defaults of 92_eei_decisions.md (D4, D16, D23, D28, D36). -/
def Params.atReset : Params where
  unstableMode := .refuse
  prgRamMode   := .ram
  renderDot    := 256
  s0NeedsBg    := false
  fbHeight     := .h240

end Sys2Proof
end

