-- ==== Sys2Proof/Syntax.lean ====
section
/-! DEFINITION. The instructions: addressing modes, operands, mnemonics, and `Instr`, one constructor per mnemonic of
spec/opcode_table.json with the operand form as an argument, so that a constructor with a mode is one row of the table
(log entry 1). -/

namespace Sys2Proof

/-- The 13 addressing modes (R142). -/
inductive Mode where
  | imp | acc | imm | zp | zpx | zpy | abs | abx | aby | ind | izx | izy | rel
deriving DecidableEq, Repr

/-- The operand of an instruction that reads or writes data (R144 to R151, R153, R154), with the operand bytes that
were fetched: one byte, or a 16-bit word. -/
inductive Operand where
  /-- The accumulator (R144). -/
  | acc
  /-- An immediate byte (R145). -/
  | imm (b : Byte)
  /-- Zero page (R146). -/
  | zp (b : Byte)
  /-- Zero page indexed by X (R147). -/
  | zpx (b : Byte)
  /-- Zero page indexed by Y (R148). -/
  | zpy (b : Byte)
  /-- Absolute (R149). -/
  | abs (a : Addr)
  /-- Absolute indexed by X (R150). -/
  | abx (a : Addr)
  /-- Absolute indexed by Y (R151). -/
  | aby (a : Addr)
  /-- Indexed indirect (R153). -/
  | izx (b : Byte)
  /-- Indirect indexed (R154). -/
  | izy (b : Byte)
deriving DecidableEq, Repr

/-- The target of JMP: the operand word (R149) or a pointer to it (R152). -/
inductive JumpTarget where
  | abs (a : Addr)
  | ind (ptr : Addr)
deriving DecidableEq, Repr

/-- The mnemonics of the descriptor table (R157, R160). `nopU` is *NOP and `sbcU` is *SBC, the undocumented
spellings of R360 and R353. -/
inductive Mnemonic where
  | lda | ldx | ldy | sta | stx | sty | tax | tay | txa | tya | tsx | txs
  | adc | sbc | and | ora | eor | bit | cmp | cpx | cpy | inc | dec | inx | iny | dex | dey
  | asl | lsr | rol | ror
  | pha | php | pla | plp
  | jmp | jsr | rts | rti | brk | bpl | bmi | bvc | bvs | bcc | bcs | bne | beq
  | clc | sec | cli | sei | cld | sed | clv | nop
  | lax | sax | sbcU | dcp | isb | slo | rla | sre | rra | nopU
  | anc | alr | arr | axs | las
  | xaa | lxa | sha | shx | shy | tas
  | jam
  | nmi | irq
deriving DecidableEq, Repr

/-- The opcode classes (R158), and the synthetic entries of R160. -/
inductive OpClass where
  | official | undocumented | unvalidated | unstable | jam | synthetic
deriving DecidableEq, Repr

/-- The instructions. -/
inductive Instr where
  -- Loads, stores and transfers (41_load_store_transfer.md)
  /-- LDA (R220). -/
  | lda (operand : Operand)
  /-- LDX (R221). -/
  | ldx (operand : Operand)
  /-- LDY (R222). -/
  | ldy (operand : Operand)
  /-- STA (R223). -/
  | sta (operand : Operand)
  /-- STX (R224). -/
  | stx (operand : Operand)
  /-- STY (R225). -/
  | sty (operand : Operand)
  /-- TAX (R226). -/
  | tax
  /-- TAY (R227). -/
  | tay
  /-- TXA (R228). -/
  | txa
  /-- TYA (R229). -/
  | tya
  /-- TSX (R230). -/
  | tsx
  /-- TXS (R231). -/
  | txs
  -- Arithmetic, logic, compare, increment and decrement (42_arith_logic.md)
  /-- ADC (R252). -/
  | adc (operand : Operand)
  /-- SBC (R253). -/
  | sbc (operand : Operand)
  /-- AND (R254). -/
  | and (operand : Operand)
  /-- ORA (R255). -/
  | ora (operand : Operand)
  /-- EOR (R256). -/
  | eor (operand : Operand)
  /-- BIT (R257). -/
  | bit (operand : Operand)
  /-- CMP (R258). -/
  | cmp (operand : Operand)
  /-- CPX (R259). -/
  | cpx (operand : Operand)
  /-- CPY (R260). -/
  | cpy (operand : Operand)
  /-- INC (R261). -/
  | inc (operand : Operand)
  /-- DEC (R262). -/
  | dec (operand : Operand)
  /-- INX (R263). -/
  | inx
  /-- INY (R264). -/
  | iny
  /-- DEX (R265). -/
  | dex
  /-- DEY (R266). -/
  | dey
  -- Shifts and rotates (43_shift_rotate.md)
  /-- ASL (R291). -/
  | asl (operand : Operand)
  /-- LSR (R292). -/
  | lsr (operand : Operand)
  /-- ROL (R293). -/
  | rol (operand : Operand)
  /-- ROR (R294). -/
  | ror (operand : Operand)
  -- Stack (44_stack.md)
  /-- PHA (R300). -/
  | pha
  /-- PHP (R301). -/
  | php
  /-- PLA (R302). -/
  | pla
  /-- PLP (R303). -/
  | plp
  -- Control flow (45_control_flow.md)
  /-- JMP (R310). -/
  | jmp (target : JumpTarget)
  /-- JSR (R311). -/
  | jsr (target : Addr)
  /-- RTS (R312). -/
  | rts
  /-- RTI (R313). -/
  | rti
  /-- BRK (R314). -/
  | brk
  /-- BPL (R316). -/
  | bpl (disp : Byte)
  /-- BMI (R317). -/
  | bmi (disp : Byte)
  /-- BVC (R318). -/
  | bvc (disp : Byte)
  /-- BVS (R319). -/
  | bvs (disp : Byte)
  /-- BCC (R320). -/
  | bcc (disp : Byte)
  /-- BCS (R321). -/
  | bcs (disp : Byte)
  /-- BNE (R322). -/
  | bne (disp : Byte)
  /-- BEQ (R323). -/
  | beq (disp : Byte)
  -- Flags and NOP (46_flags_misc.md)
  /-- CLC (R340). -/
  | clc
  /-- SEC (R341). -/
  | sec
  /-- CLI (R342). -/
  | cli
  /-- SEI (R343). -/
  | sei
  /-- CLD (R344). -/
  | cld
  /-- SED (R345). -/
  | sed
  /-- CLV (R346). -/
  | clv
  /-- NOP (R347). -/
  | nop
  -- Undocumented (47_undocumented.md section 1)
  /-- *LAX (R351). -/
  | lax (operand : Operand)
  /-- *SAX (R352). -/
  | sax (operand : Operand)
  /-- *SBC (R353). -/
  | sbcU (imm : Byte)
  /-- *DCP (R354). -/
  | dcp (operand : Operand)
  /-- *ISB (R355). -/
  | isb (operand : Operand)
  /-- *SLO (R356). -/
  | slo (operand : Operand)
  /-- *RLA (R357). -/
  | rla (operand : Operand)
  /-- *SRE (R358). -/
  | sre (operand : Operand)
  /-- *RRA (R359). -/
  | rra (operand : Operand)
  /-- *NOP (R360). -/
  | nopU (op : Byte) (operand : Option Operand)
  -- Undocumented, unvalidated (47_undocumented.md section 2)
  /-- ANC (R361). -/
  | anc (op : Byte) (imm : Byte)
  /-- ALR (R362). -/
  | alr (imm : Byte)
  /-- ARR (R363). -/
  | arr (imm : Byte)
  /-- AXS (R364). -/
  | axs (imm : Byte)
  /-- LAS (R365). -/
  | las (base : Addr)
  -- Unstable (47_undocumented.md section 3)
  /-- XAA (R367). -/
  | xaa (imm : Byte)
  /-- LXA (R368). -/
  | lxa (imm : Byte)
  /-- SHA (R369). -/
  | sha (operand : Operand)
  /-- SHX (R370). -/
  | shx (base : Addr)
  /-- SHY (R371). -/
  | shy (base : Addr)
  /-- TAS (R372). -/
  | tas (base : Addr)
  -- JAM (47_undocumented.md section 4)
  /-- JAM (R373). -/
  | jam (op : Byte)
  -- The synthetic entries (60_exceptions.md R406, R407)
  /-- NMI (R406). -/
  | nmi
  /-- IRQ (R407). -/
  | irq
deriving DecidableEq, Repr

/-- The addressing mode of a data operand. -/
def Operand.mode : Operand → Mode
  | .acc => .acc
  | .imm _ => .imm
  | .zp _ => .zp
  | .zpx _ => .zpx
  | .zpy _ => .zpy
  | .abs _ => .abs
  | .abx _ => .abx
  | .aby _ => .aby
  | .izx _ => .izx
  | .izy _ => .izy

/-- The addressing mode of a jump target. -/
def JumpTarget.mode : JumpTarget → Mode
  | .abs _ => .abs
  | .ind _ => .ind

/-- The mnemonic of an instruction's table row. -/
def Instr.mnemonic : Instr → Mnemonic
  | .lda _ => .lda
  | .ldx _ => .ldx
  | .ldy _ => .ldy
  | .sta _ => .sta
  | .stx _ => .stx
  | .sty _ => .sty
  | .tax => .tax
  | .tay => .tay
  | .txa => .txa
  | .tya => .tya
  | .tsx => .tsx
  | .txs => .txs
  | .adc _ => .adc
  | .sbc _ => .sbc
  | .and _ => .and
  | .ora _ => .ora
  | .eor _ => .eor
  | .bit _ => .bit
  | .cmp _ => .cmp
  | .cpx _ => .cpx
  | .cpy _ => .cpy
  | .inc _ => .inc
  | .dec _ => .dec
  | .inx => .inx
  | .iny => .iny
  | .dex => .dex
  | .dey => .dey
  | .asl _ => .asl
  | .lsr _ => .lsr
  | .rol _ => .rol
  | .ror _ => .ror
  | .pha => .pha
  | .php => .php
  | .pla => .pla
  | .plp => .plp
  | .jmp _ => .jmp
  | .jsr _ => .jsr
  | .rts => .rts
  | .rti => .rti
  | .brk => .brk
  | .bpl _ => .bpl
  | .bmi _ => .bmi
  | .bvc _ => .bvc
  | .bvs _ => .bvs
  | .bcc _ => .bcc
  | .bcs _ => .bcs
  | .bne _ => .bne
  | .beq _ => .beq
  | .clc => .clc
  | .sec => .sec
  | .cli => .cli
  | .sei => .sei
  | .cld => .cld
  | .sed => .sed
  | .clv => .clv
  | .nop => .nop
  | .lax _ => .lax
  | .sax _ => .sax
  | .sbcU _ => .sbcU
  | .dcp _ => .dcp
  | .isb _ => .isb
  | .slo _ => .slo
  | .rla _ => .rla
  | .sre _ => .sre
  | .rra _ => .rra
  | .nopU _ _ => .nopU
  | .anc _ _ => .anc
  | .alr _ => .alr
  | .arr _ => .arr
  | .axs _ => .axs
  | .las _ => .las
  | .xaa _ => .xaa
  | .lxa _ => .lxa
  | .sha _ => .sha
  | .shx _ => .shx
  | .shy _ => .shy
  | .tas _ => .tas
  | .jam _ => .jam
  | .nmi => .nmi
  | .irq => .irq

/-- The addressing mode of an instruction's table row. -/
def Instr.mode : Instr → Mode
  | .lda o => o.mode
  | .ldx o => o.mode
  | .ldy o => o.mode
  | .sta o => o.mode
  | .stx o => o.mode
  | .sty o => o.mode
  | .tax => .imp
  | .tay => .imp
  | .txa => .imp
  | .tya => .imp
  | .tsx => .imp
  | .txs => .imp
  | .adc o => o.mode
  | .sbc o => o.mode
  | .and o => o.mode
  | .ora o => o.mode
  | .eor o => o.mode
  | .bit o => o.mode
  | .cmp o => o.mode
  | .cpx o => o.mode
  | .cpy o => o.mode
  | .inc o => o.mode
  | .dec o => o.mode
  | .inx => .imp
  | .iny => .imp
  | .dex => .imp
  | .dey => .imp
  | .asl o => o.mode
  | .lsr o => o.mode
  | .rol o => o.mode
  | .ror o => o.mode
  | .pha => .imp
  | .php => .imp
  | .pla => .imp
  | .plp => .imp
  | .jmp t => t.mode
  | .jsr _ => .abs
  | .rts => .imp
  | .rti => .imp
  | .brk => .imp
  | .bpl _ => .rel
  | .bmi _ => .rel
  | .bvc _ => .rel
  | .bvs _ => .rel
  | .bcc _ => .rel
  | .bcs _ => .rel
  | .bne _ => .rel
  | .beq _ => .rel
  | .clc => .imp
  | .sec => .imp
  | .cli => .imp
  | .sei => .imp
  | .cld => .imp
  | .sed => .imp
  | .clv => .imp
  | .nop => .imp
  | .lax o => o.mode
  | .sax o => o.mode
  | .sbcU _ => .imm
  | .dcp o => o.mode
  | .isb o => o.mode
  | .slo o => o.mode
  | .rla o => o.mode
  | .sre o => o.mode
  | .rra o => o.mode
  | .nopU _ o => (o.map Operand.mode).getD .imp
  | .anc _ _ => .imm
  | .alr _ => .imm
  | .arr _ => .imm
  | .axs _ => .imm
  | .las _ => .aby
  | .xaa _ => .imm
  | .lxa _ => .imm
  | .sha o => o.mode
  | .shx _ => .aby
  | .shy _ => .abx
  | .tas _ => .aby
  | .jam _ => .imp
  | .nmi => .imp
  | .irq => .imp

end Sys2Proof
end

