-- ==== Sys2Proof/WellFormed.lean ====
section
/-! DEFINITION. Which terms of `Instr` stand for a row of the table: the modes each instruction's rule lists under
"Encoding", and the opcode bytes of the three mnemonics that have several for one mode. -/

namespace Sys2Proof

/-- The modes of the eight-form read instructions LDA, ADC, SBC, AND, ORA, EOR, CMP (R220, R252 to R256, R258). -/
def Modes.read8 : List Mode := [.izx, .zp, .imm, .abs, .izy, .zpx, .aby, .abx]

/-- The modes of STA (R223) and of the undocumented read-modify-write combinations (R354 to R359). -/
def Modes.store7 : List Mode := [.izx, .zp, .abs, .izy, .zpx, .aby, .abx]

/-- The modes of the shifts and rotates (R291 to R294). -/
def Modes.shift5 : List Mode := [.zp, .acc, .abs, .zpx, .abx]

/-- The modes of INC and DEC (R261, R262). -/
def Modes.incDec4 : List Mode := [.zp, .abs, .zpx, .abx]

/-- The modes an instruction's rule gives it, for the constructors that take an `Operand` (files 41, 42, 43, 47). -/
def Mnemonic.operandModes : Mnemonic → List Mode
  | .lda => Modes.read8
  | .ldx => [.imm, .zp, .abs, .zpy, .aby]
  | .ldy => [.imm, .zp, .abs, .zpx, .abx]
  | .sta => Modes.store7
  | .stx => [.zp, .abs, .zpy]
  | .sty => [.zp, .abs, .zpx]
  | .adc => Modes.read8
  | .sbc => Modes.read8
  | .and => Modes.read8
  | .ora => Modes.read8
  | .eor => Modes.read8
  | .bit => [.zp, .abs]
  | .cmp => Modes.read8
  | .cpx => [.imm, .zp, .abs]
  | .cpy => [.imm, .zp, .abs]
  | .inc => Modes.incDec4
  | .dec => Modes.incDec4
  | .asl => Modes.shift5
  | .lsr => Modes.shift5
  | .rol => Modes.shift5
  | .ror => Modes.shift5
  | .lax => [.izx, .zp, .abs, .izy, .zpy, .aby]
  | .sax => [.izx, .zp, .abs, .zpy]
  | .dcp => Modes.store7
  | .isb => Modes.store7
  | .slo => Modes.store7
  | .rla => Modes.store7
  | .sre => Modes.store7
  | .rra => Modes.store7
  | .sha => [.izy, .aby]
  | .tax | .tay | .txa | .tya | .tsx | .txs | .inx | .iny | .dex | .dey | .pha | .php | .pla | .plp
  | .jmp | .jsr | .rts | .rti | .brk | .bpl | .bmi | .bvc | .bvs | .bcc | .bcs | .bne | .beq | .clc
  | .sec | .cli | .sei | .cld | .sed | .clv | .nop | .sbcU | .nopU | .anc | .alr | .arr | .axs | .las
  | .xaa | .lxa | .shx | .shy | .tas | .jam | .nmi | .irq => []

/-- The 12 JAM opcodes (R373). -/
def jamOpcodes : List Byte :=
  [0x02, 0x12, 0x22, 0x32, 0x42, 0x52, 0x62, 0x72, 0x92, 0xB2, 0xD2, 0xF2]

/-- The two ANC opcodes (R361). -/
def ancOpcodes : List Byte := [0x0B, 0x2B]

/-- The 27 *NOP opcodes by mode (R360). -/
def nopOpcodes : Mode → List Byte
  | .imp => [0x1A, 0x3A, 0x5A, 0x7A, 0xDA, 0xFA]
  | .imm => [0x80, 0x82, 0x89, 0xC2, 0xE2]
  | .zp => [0x04, 0x44, 0x64]
  | .zpx => [0x14, 0x34, 0x54, 0x74, 0xD4, 0xF4]
  | .abs => [0x0C]
  | .abx => [0x1C, 0x3C, 0x5C, 0x7C, 0xDC, 0xFC]
  | .acc | .zpy | .aby | .ind | .izx | .izy | .rel => []

/-- The instruction stands for a row of the table: its operand has a mode its rule lists, and an opcode byte that is
an argument is one of those its rule lists. -/
def Instr.wf : Instr → Bool
  | .lda o => Mnemonic.operandModes .lda |>.contains o.mode
  | .ldx o => Mnemonic.operandModes .ldx |>.contains o.mode
  | .ldy o => Mnemonic.operandModes .ldy |>.contains o.mode
  | .sta o => Mnemonic.operandModes .sta |>.contains o.mode
  | .stx o => Mnemonic.operandModes .stx |>.contains o.mode
  | .sty o => Mnemonic.operandModes .sty |>.contains o.mode
  | .tax => true
  | .tay => true
  | .txa => true
  | .tya => true
  | .tsx => true
  | .txs => true
  | .adc o => Mnemonic.operandModes .adc |>.contains o.mode
  | .sbc o => Mnemonic.operandModes .sbc |>.contains o.mode
  | .and o => Mnemonic.operandModes .and |>.contains o.mode
  | .ora o => Mnemonic.operandModes .ora |>.contains o.mode
  | .eor o => Mnemonic.operandModes .eor |>.contains o.mode
  | .bit o => Mnemonic.operandModes .bit |>.contains o.mode
  | .cmp o => Mnemonic.operandModes .cmp |>.contains o.mode
  | .cpx o => Mnemonic.operandModes .cpx |>.contains o.mode
  | .cpy o => Mnemonic.operandModes .cpy |>.contains o.mode
  | .inc o => Mnemonic.operandModes .inc |>.contains o.mode
  | .dec o => Mnemonic.operandModes .dec |>.contains o.mode
  | .inx => true
  | .iny => true
  | .dex => true
  | .dey => true
  | .asl o => Mnemonic.operandModes .asl |>.contains o.mode
  | .lsr o => Mnemonic.operandModes .lsr |>.contains o.mode
  | .rol o => Mnemonic.operandModes .rol |>.contains o.mode
  | .ror o => Mnemonic.operandModes .ror |>.contains o.mode
  | .pha => true
  | .php => true
  | .pla => true
  | .plp => true
  | .jmp _ => true
  | .jsr _ => true
  | .rts => true
  | .rti => true
  | .brk => true
  | .bpl _ => true
  | .bmi _ => true
  | .bvc _ => true
  | .bvs _ => true
  | .bcc _ => true
  | .bcs _ => true
  | .bne _ => true
  | .beq _ => true
  | .clc => true
  | .sec => true
  | .cli => true
  | .sei => true
  | .cld => true
  | .sed => true
  | .clv => true
  | .nop => true
  | .lax o => Mnemonic.operandModes .lax |>.contains o.mode
  | .sax o => Mnemonic.operandModes .sax |>.contains o.mode
  | .sbcU _ => true
  | .dcp o => Mnemonic.operandModes .dcp |>.contains o.mode
  | .isb o => Mnemonic.operandModes .isb |>.contains o.mode
  | .slo o => Mnemonic.operandModes .slo |>.contains o.mode
  | .rla o => Mnemonic.operandModes .rla |>.contains o.mode
  | .sre o => Mnemonic.operandModes .sre |>.contains o.mode
  | .rra o => Mnemonic.operandModes .rra |>.contains o.mode
  | .nopU op o => (nopOpcodes ((o.map Operand.mode).getD .imp)).contains op
  | .anc op _ => ancOpcodes.contains op
  | .alr _ => true
  | .arr _ => true
  | .axs _ => true
  | .las _ => true
  | .xaa _ => true
  | .lxa _ => true
  | .sha o => Mnemonic.operandModes .sha |>.contains o.mode
  | .shx _ => true
  | .shy _ => true
  | .tas _ => true
  | .jam op => jamOpcodes.contains op
  | .nmi => true
  | .irq => true

/-- The instruction has bytes that can be fetched: every one but the two synthetic entries, which no byte selects
(R160). -/
def Instr.fetchable (i : Instr) : Bool := i.mnemonic != .nmi && i.mnemonic != .irq

end Sys2Proof
end

