-- ==== Sys2Proof/Decode.lean ====
section
/-! DEFINITION. The decoder, from the opcode map of R157 (one row of the list per row of that table), and after it the
encoder, from the "Encoding" line of each instruction's rule. -/

namespace Sys2Proof

/-- `w16(h, l)` (R7). -/
def w16 (h l : Byte) : Addr := h ++ l

/-- `lo(w)` (R7). -/
def lo (w : Addr) : Byte := w.setWidth 8

/-- `hi(w)` (R7). -/
def hi (w : Addr) : Byte := (w >>> 8).setWidth 8

/-- The class of a mnemonic's rows (R158, R160). -/
def Mnemonic.opClass : Mnemonic → OpClass
  | .lax | .sax | .sbcU | .dcp | .isb | .slo | .rla | .sre | .rra | .nopU => .undocumented
  | .anc | .alr | .arr | .axs | .las => .unvalidated
  | .xaa | .lxa | .sha | .shx | .shy | .tas => .unstable
  | .jam => .jam
  | .nmi | .irq => .synthetic
  | .lda | .ldx | .ldy | .sta | .stx | .sty | .tax | .tay | .txa | .tya | .tsx | .txs | .adc | .sbc
  | .and | .ora | .eor | .bit | .cmp | .cpx | .cpy | .inc | .dec | .inx | .iny | .dex | .dey | .asl
  | .lsr | .rol | .ror | .pha | .php | .pla | .plp | .jmp | .jsr | .rts | .rti | .brk | .bpl | .bmi
  | .bvc | .bvs | .bcc | .bcs | .bne | .beq | .clc | .sec | .cli | .sei | .cld | .sed | .clv | .nop => .official

/-- How many operand bytes a mode fetches (R140, R142). -/
def Mode.operandBytes : Mode → Nat
  | .imp | .acc => 0
  | .imm | .zp | .zpx | .zpy | .izx | .izy | .rel => 1
  | .abs | .abx | .aby | .ind => 2

/-- An entry of the descriptor table: mnemonic, mode, base cost, page penalty (R156, R195). -/
structure Descriptor where
  mnemonic : Mnemonic
  mode     : Mode
  base     : Nat
  pen      : Bool
deriving DecidableEq, Repr

/-- Row 0x of R157. -/
def opcodeRow0 : List Descriptor :=
  [⟨.brk, .imp, 7, false⟩, ⟨.ora, .izx, 6, false⟩, ⟨.jam, .imp, 1, false⟩, ⟨.slo, .izx, 8, false⟩,
   ⟨.nopU, .zp, 3, false⟩, ⟨.ora, .zp, 3, false⟩, ⟨.asl, .zp, 5, false⟩, ⟨.slo, .zp, 5, false⟩,
   ⟨.php, .imp, 3, false⟩, ⟨.ora, .imm, 2, false⟩, ⟨.asl, .acc, 2, false⟩, ⟨.anc, .imm, 2, false⟩,
   ⟨.nopU, .abs, 4, false⟩, ⟨.ora, .abs, 4, false⟩, ⟨.asl, .abs, 6, false⟩, ⟨.slo, .abs, 6, false⟩]

/-- Row 1x of R157. -/
def opcodeRow1 : List Descriptor :=
  [⟨.bpl, .rel, 2, false⟩, ⟨.ora, .izy, 5, true⟩, ⟨.jam, .imp, 1, false⟩, ⟨.slo, .izy, 8, false⟩,
   ⟨.nopU, .zpx, 4, false⟩, ⟨.ora, .zpx, 4, false⟩, ⟨.asl, .zpx, 6, false⟩, ⟨.slo, .zpx, 6, false⟩,
   ⟨.clc, .imp, 2, false⟩, ⟨.ora, .aby, 4, true⟩, ⟨.nopU, .imp, 2, false⟩, ⟨.slo, .aby, 7, false⟩,
   ⟨.nopU, .abx, 4, true⟩, ⟨.ora, .abx, 4, true⟩, ⟨.asl, .abx, 7, false⟩, ⟨.slo, .abx, 7, false⟩]

/-- Row 2x of R157. -/
def opcodeRow2 : List Descriptor :=
  [⟨.jsr, .abs, 6, false⟩, ⟨.and, .izx, 6, false⟩, ⟨.jam, .imp, 1, false⟩, ⟨.rla, .izx, 8, false⟩,
   ⟨.bit, .zp, 3, false⟩, ⟨.and, .zp, 3, false⟩, ⟨.rol, .zp, 5, false⟩, ⟨.rla, .zp, 5, false⟩,
   ⟨.plp, .imp, 4, false⟩, ⟨.and, .imm, 2, false⟩, ⟨.rol, .acc, 2, false⟩, ⟨.anc, .imm, 2, false⟩,
   ⟨.bit, .abs, 4, false⟩, ⟨.and, .abs, 4, false⟩, ⟨.rol, .abs, 6, false⟩, ⟨.rla, .abs, 6, false⟩]

/-- Row 3x of R157. -/
def opcodeRow3 : List Descriptor :=
  [⟨.bmi, .rel, 2, false⟩, ⟨.and, .izy, 5, true⟩, ⟨.jam, .imp, 1, false⟩, ⟨.rla, .izy, 8, false⟩,
   ⟨.nopU, .zpx, 4, false⟩, ⟨.and, .zpx, 4, false⟩, ⟨.rol, .zpx, 6, false⟩, ⟨.rla, .zpx, 6, false⟩,
   ⟨.sec, .imp, 2, false⟩, ⟨.and, .aby, 4, true⟩, ⟨.nopU, .imp, 2, false⟩, ⟨.rla, .aby, 7, false⟩,
   ⟨.nopU, .abx, 4, true⟩, ⟨.and, .abx, 4, true⟩, ⟨.rol, .abx, 7, false⟩, ⟨.rla, .abx, 7, false⟩]

/-- Row 4x of R157. -/
def opcodeRow4 : List Descriptor :=
  [⟨.rti, .imp, 6, false⟩, ⟨.eor, .izx, 6, false⟩, ⟨.jam, .imp, 1, false⟩, ⟨.sre, .izx, 8, false⟩,
   ⟨.nopU, .zp, 3, false⟩, ⟨.eor, .zp, 3, false⟩, ⟨.lsr, .zp, 5, false⟩, ⟨.sre, .zp, 5, false⟩,
   ⟨.pha, .imp, 3, false⟩, ⟨.eor, .imm, 2, false⟩, ⟨.lsr, .acc, 2, false⟩, ⟨.alr, .imm, 2, false⟩,
   ⟨.jmp, .abs, 3, false⟩, ⟨.eor, .abs, 4, false⟩, ⟨.lsr, .abs, 6, false⟩, ⟨.sre, .abs, 6, false⟩]

/-- Row 5x of R157. -/
def opcodeRow5 : List Descriptor :=
  [⟨.bvc, .rel, 2, false⟩, ⟨.eor, .izy, 5, true⟩, ⟨.jam, .imp, 1, false⟩, ⟨.sre, .izy, 8, false⟩,
   ⟨.nopU, .zpx, 4, false⟩, ⟨.eor, .zpx, 4, false⟩, ⟨.lsr, .zpx, 6, false⟩, ⟨.sre, .zpx, 6, false⟩,
   ⟨.cli, .imp, 2, false⟩, ⟨.eor, .aby, 4, true⟩, ⟨.nopU, .imp, 2, false⟩, ⟨.sre, .aby, 7, false⟩,
   ⟨.nopU, .abx, 4, true⟩, ⟨.eor, .abx, 4, true⟩, ⟨.lsr, .abx, 7, false⟩, ⟨.sre, .abx, 7, false⟩]

/-- Row 6x of R157. -/
def opcodeRow6 : List Descriptor :=
  [⟨.rts, .imp, 6, false⟩, ⟨.adc, .izx, 6, false⟩, ⟨.jam, .imp, 1, false⟩, ⟨.rra, .izx, 8, false⟩,
   ⟨.nopU, .zp, 3, false⟩, ⟨.adc, .zp, 3, false⟩, ⟨.ror, .zp, 5, false⟩, ⟨.rra, .zp, 5, false⟩,
   ⟨.pla, .imp, 4, false⟩, ⟨.adc, .imm, 2, false⟩, ⟨.ror, .acc, 2, false⟩, ⟨.arr, .imm, 2, false⟩,
   ⟨.jmp, .ind, 5, false⟩, ⟨.adc, .abs, 4, false⟩, ⟨.ror, .abs, 6, false⟩, ⟨.rra, .abs, 6, false⟩]

/-- Row 7x of R157. -/
def opcodeRow7 : List Descriptor :=
  [⟨.bvs, .rel, 2, false⟩, ⟨.adc, .izy, 5, true⟩, ⟨.jam, .imp, 1, false⟩, ⟨.rra, .izy, 8, false⟩,
   ⟨.nopU, .zpx, 4, false⟩, ⟨.adc, .zpx, 4, false⟩, ⟨.ror, .zpx, 6, false⟩, ⟨.rra, .zpx, 6, false⟩,
   ⟨.sei, .imp, 2, false⟩, ⟨.adc, .aby, 4, true⟩, ⟨.nopU, .imp, 2, false⟩, ⟨.rra, .aby, 7, false⟩,
   ⟨.nopU, .abx, 4, true⟩, ⟨.adc, .abx, 4, true⟩, ⟨.ror, .abx, 7, false⟩, ⟨.rra, .abx, 7, false⟩]

/-- Row 8x of R157. -/
def opcodeRow8 : List Descriptor :=
  [⟨.nopU, .imm, 2, false⟩, ⟨.sta, .izx, 6, false⟩, ⟨.nopU, .imm, 2, false⟩, ⟨.sax, .izx, 6, false⟩,
   ⟨.sty, .zp, 3, false⟩, ⟨.sta, .zp, 3, false⟩, ⟨.stx, .zp, 3, false⟩, ⟨.sax, .zp, 3, false⟩,
   ⟨.dey, .imp, 2, false⟩, ⟨.nopU, .imm, 2, false⟩, ⟨.txa, .imp, 2, false⟩, ⟨.xaa, .imm, 2, false⟩,
   ⟨.sty, .abs, 4, false⟩, ⟨.sta, .abs, 4, false⟩, ⟨.stx, .abs, 4, false⟩, ⟨.sax, .abs, 4, false⟩]

/-- Row 9x of R157. -/
def opcodeRow9 : List Descriptor :=
  [⟨.bcc, .rel, 2, false⟩, ⟨.sta, .izy, 6, false⟩, ⟨.jam, .imp, 1, false⟩, ⟨.sha, .izy, 6, false⟩,
   ⟨.sty, .zpx, 4, false⟩, ⟨.sta, .zpx, 4, false⟩, ⟨.stx, .zpy, 4, false⟩, ⟨.sax, .zpy, 4, false⟩,
   ⟨.tya, .imp, 2, false⟩, ⟨.sta, .aby, 5, false⟩, ⟨.txs, .imp, 2, false⟩, ⟨.tas, .aby, 5, false⟩,
   ⟨.shy, .abx, 5, false⟩, ⟨.sta, .abx, 5, false⟩, ⟨.shx, .aby, 5, false⟩, ⟨.sha, .aby, 5, false⟩]

/-- Row Ax of R157. -/
def opcodeRowA : List Descriptor :=
  [⟨.ldy, .imm, 2, false⟩, ⟨.lda, .izx, 6, false⟩, ⟨.ldx, .imm, 2, false⟩, ⟨.lax, .izx, 6, false⟩,
   ⟨.ldy, .zp, 3, false⟩, ⟨.lda, .zp, 3, false⟩, ⟨.ldx, .zp, 3, false⟩, ⟨.lax, .zp, 3, false⟩,
   ⟨.tay, .imp, 2, false⟩, ⟨.lda, .imm, 2, false⟩, ⟨.tax, .imp, 2, false⟩, ⟨.lxa, .imm, 2, false⟩,
   ⟨.ldy, .abs, 4, false⟩, ⟨.lda, .abs, 4, false⟩, ⟨.ldx, .abs, 4, false⟩, ⟨.lax, .abs, 4, false⟩]

/-- Row Bx of R157. -/
def opcodeRowB : List Descriptor :=
  [⟨.bcs, .rel, 2, false⟩, ⟨.lda, .izy, 5, true⟩, ⟨.jam, .imp, 1, false⟩, ⟨.lax, .izy, 5, true⟩,
   ⟨.ldy, .zpx, 4, false⟩, ⟨.lda, .zpx, 4, false⟩, ⟨.ldx, .zpy, 4, false⟩, ⟨.lax, .zpy, 4, false⟩,
   ⟨.clv, .imp, 2, false⟩, ⟨.lda, .aby, 4, true⟩, ⟨.tsx, .imp, 2, false⟩, ⟨.las, .aby, 4, true⟩,
   ⟨.ldy, .abx, 4, true⟩, ⟨.lda, .abx, 4, true⟩, ⟨.ldx, .aby, 4, true⟩, ⟨.lax, .aby, 4, true⟩]

/-- Row Cx of R157. -/
def opcodeRowC : List Descriptor :=
  [⟨.cpy, .imm, 2, false⟩, ⟨.cmp, .izx, 6, false⟩, ⟨.nopU, .imm, 2, false⟩, ⟨.dcp, .izx, 8, false⟩,
   ⟨.cpy, .zp, 3, false⟩, ⟨.cmp, .zp, 3, false⟩, ⟨.dec, .zp, 5, false⟩, ⟨.dcp, .zp, 5, false⟩,
   ⟨.iny, .imp, 2, false⟩, ⟨.cmp, .imm, 2, false⟩, ⟨.dex, .imp, 2, false⟩, ⟨.axs, .imm, 2, false⟩,
   ⟨.cpy, .abs, 4, false⟩, ⟨.cmp, .abs, 4, false⟩, ⟨.dec, .abs, 6, false⟩, ⟨.dcp, .abs, 6, false⟩]

/-- Row Dx of R157. -/
def opcodeRowD : List Descriptor :=
  [⟨.bne, .rel, 2, false⟩, ⟨.cmp, .izy, 5, true⟩, ⟨.jam, .imp, 1, false⟩, ⟨.dcp, .izy, 8, false⟩,
   ⟨.nopU, .zpx, 4, false⟩, ⟨.cmp, .zpx, 4, false⟩, ⟨.dec, .zpx, 6, false⟩, ⟨.dcp, .zpx, 6, false⟩,
   ⟨.cld, .imp, 2, false⟩, ⟨.cmp, .aby, 4, true⟩, ⟨.nopU, .imp, 2, false⟩, ⟨.dcp, .aby, 7, false⟩,
   ⟨.nopU, .abx, 4, true⟩, ⟨.cmp, .abx, 4, true⟩, ⟨.dec, .abx, 7, false⟩, ⟨.dcp, .abx, 7, false⟩]

/-- Row Ex of R157. -/
def opcodeRowE : List Descriptor :=
  [⟨.cpx, .imm, 2, false⟩, ⟨.sbc, .izx, 6, false⟩, ⟨.nopU, .imm, 2, false⟩, ⟨.isb, .izx, 8, false⟩,
   ⟨.cpx, .zp, 3, false⟩, ⟨.sbc, .zp, 3, false⟩, ⟨.inc, .zp, 5, false⟩, ⟨.isb, .zp, 5, false⟩,
   ⟨.inx, .imp, 2, false⟩, ⟨.sbc, .imm, 2, false⟩, ⟨.nop, .imp, 2, false⟩, ⟨.sbcU, .imm, 2, false⟩,
   ⟨.cpx, .abs, 4, false⟩, ⟨.sbc, .abs, 4, false⟩, ⟨.inc, .abs, 6, false⟩, ⟨.isb, .abs, 6, false⟩]

/-- Row Fx of R157. -/
def opcodeRowF : List Descriptor :=
  [⟨.beq, .rel, 2, false⟩, ⟨.sbc, .izy, 5, true⟩, ⟨.jam, .imp, 1, false⟩, ⟨.isb, .izy, 8, false⟩,
   ⟨.nopU, .zpx, 4, false⟩, ⟨.sbc, .zpx, 4, false⟩, ⟨.inc, .zpx, 6, false⟩, ⟨.isb, .zpx, 6, false⟩,
   ⟨.sed, .imp, 2, false⟩, ⟨.sbc, .aby, 4, true⟩, ⟨.nopU, .imp, 2, false⟩, ⟨.isb, .aby, 7, false⟩,
   ⟨.nopU, .abx, 4, true⟩, ⟨.sbc, .abx, 4, true⟩, ⟨.inc, .abx, 7, false⟩, ⟨.isb, .abx, 7, false⟩]

/-- The 256 entries of R157, by rows of 16. -/
def opcodeRows : List (List Descriptor) :=
  [opcodeRow0, opcodeRow1, opcodeRow2, opcodeRow3, opcodeRow4, opcodeRow5, opcodeRow6, opcodeRow7,
   opcodeRow8, opcodeRow9, opcodeRowA, opcodeRowB, opcodeRowC, opcodeRowD, opcodeRowE, opcodeRowF]

/-- The entry an opcode byte indexes (R195): row its high nibble, column its low nibble. Every byte has one (R159), so
the default is never taken. -/
def descriptor (op : Byte) : Descriptor :=
  ((opcodeRows.getD (op.toNat / 16) []).getD (op.toNat % 16) ⟨.jam, .imp, 1, false⟩)

/-- The two synthetic entries of the descriptor table, at indices 256 and 257 (R160). No byte selects them: the step
function does (R192, R193). -/
def syntheticEntry : Nat → Option Instr
  | 256 => some .nmi
  | 257 => some .irq
  | _ => none

/-- The data operand of a mode with its operand bytes, low byte first (R140, R81); none for the modes that have no
data operand. -/
def dataOperand (mode : Mode) (l h : Byte) : Option Operand :=
  match mode with
  | .acc => some .acc
  | .imm => some (.imm l)
  | .zp => some (.zp l)
  | .zpx => some (.zpx l)
  | .zpy => some (.zpy l)
  | .abs => some (.abs (w16 h l))
  | .abx => some (.abx (w16 h l))
  | .aby => some (.aby (w16 h l))
  | .izx => some (.izx l)
  | .izy => some (.izy l)
  | .imp | .ind | .rel => none

/-- The instruction of a table row with its opcode byte and operand bytes. The accumulator stands in where a row would
have no data operand; no row of R157 does where one is asked for. -/
def assemble (m : Mnemonic) (mode : Mode) (op l h : Byte) : Instr :=
  let operand := (dataOperand mode l h).getD .acc
  match m with
  | .lda => .lda operand
  | .ldx => .ldx operand
  | .ldy => .ldy operand
  | .sta => .sta operand
  | .stx => .stx operand
  | .sty => .sty operand
  | .tax => .tax
  | .tay => .tay
  | .txa => .txa
  | .tya => .tya
  | .tsx => .tsx
  | .txs => .txs
  | .adc => .adc operand
  | .sbc => .sbc operand
  | .and => .and operand
  | .ora => .ora operand
  | .eor => .eor operand
  | .bit => .bit operand
  | .cmp => .cmp operand
  | .cpx => .cpx operand
  | .cpy => .cpy operand
  | .inc => .inc operand
  | .dec => .dec operand
  | .inx => .inx
  | .iny => .iny
  | .dex => .dex
  | .dey => .dey
  | .asl => .asl operand
  | .lsr => .lsr operand
  | .rol => .rol operand
  | .ror => .ror operand
  | .pha => .pha
  | .php => .php
  | .pla => .pla
  | .plp => .plp
  | .jmp => .jmp (if mode = .ind then .ind (w16 h l) else .abs (w16 h l))
  | .jsr => .jsr (w16 h l)
  | .rts => .rts
  | .rti => .rti
  | .brk => .brk
  | .bpl => .bpl l
  | .bmi => .bmi l
  | .bvc => .bvc l
  | .bvs => .bvs l
  | .bcc => .bcc l
  | .bcs => .bcs l
  | .bne => .bne l
  | .beq => .beq l
  | .clc => .clc
  | .sec => .sec
  | .cli => .cli
  | .sei => .sei
  | .cld => .cld
  | .sed => .sed
  | .clv => .clv
  | .nop => .nop
  | .lax => .lax operand
  | .sax => .sax operand
  | .sbcU => .sbcU l
  | .dcp => .dcp operand
  | .isb => .isb operand
  | .slo => .slo operand
  | .rla => .rla operand
  | .sre => .sre operand
  | .rra => .rra operand
  | .nopU => .nopU op (dataOperand mode l h)
  | .anc => .anc op l
  | .alr => .alr l
  | .arr => .arr l
  | .axs => .axs l
  | .las => .las (w16 h l)
  | .xaa => .xaa l
  | .lxa => .lxa l
  | .sha => .sha operand
  | .shx => .shx (w16 h l)
  | .shy => .shy (w16 h l)
  | .tas => .tas (w16 h l)
  | .jam => .jam op
  | .nmi => .nmi
  | .irq => .irq

/-- The instruction an opcode byte and the operand bytes of its mode stand for (R140, R195). -/
def instrOf (op l h : Byte) : Instr :=
  assemble (descriptor op).mnemonic (descriptor op).mode op l h

/-- Why bytes hold no instruction: the list ends before the operand bytes the opcode's mode needs. No byte value is
reserved (R159), so there is no other reason. -/
inductive DecodeError where
  | noBytes
  | truncated (op : Byte)
deriving DecidableEq, Repr

/-- The instruction at the head of a list of bytes, and the bytes after it. The length is told by the opcode alone
(R161). -/
def decode : List Byte → Except DecodeError (Instr × List Byte)
  | [] => .error .noBytes
  | op :: rest =>
    match (descriptor op).mode.operandBytes, rest with
    | 0, rest => .ok (instrOf op 0 0, rest)
    | 1, l :: rest => .ok (instrOf op l 0, rest)
    | 2, l :: h :: rest => .ok (instrOf op l h, rest)
    | _, _ => .error (.truncated op)

/-- The bytes of an instruction whose bits are w, numbered as the table numbers them: the first byte is bits 7..0.
Bits above nbits are 0, up to the longest instruction. -/
def tableBytes (nbits w : Nat) : List Byte :=
  let w := w % 2 ^ nbits
  [BitVec.ofNat 8 w, BitVec.ofNat 8 (w / 256), BitVec.ofNat 8 (w / 65536)]

/-- The instruction the decoder reads from a word of the table. The two rows that are wider than a byte are descriptor
indices, not bytes (R160): they select the synthetic entries. Log entry 2. -/
def decodeTableWord (nbits w : Nat) : Option Instr :=
  match (if 8 < nbits then syntheticEntry w else none), decode (tableBytes nbits w) with
  | some i, _ => some i
  | none, .ok (i, _) => some i
  | none, .error _ => none

/-- The modes and opcode bytes of an instruction, as the "Encoding" line of its rule lists them (files 41 to 47).
JAM, ANC and *NOP carry their opcode byte as an argument instead. -/
def Mnemonic.encodings : Mnemonic → List (Mode × Byte)
  | .lda => [(.izx, 0xA1), (.zp, 0xA5), (.imm, 0xA9), (.abs, 0xAD), (.izy, 0xB1), (.zpx, 0xB5), (.aby, 0xB9), (.abx, 0xBD)]
  | .ldx => [(.imm, 0xA2), (.zp, 0xA6), (.abs, 0xAE), (.zpy, 0xB6), (.aby, 0xBE)]
  | .ldy => [(.imm, 0xA0), (.zp, 0xA4), (.abs, 0xAC), (.zpx, 0xB4), (.abx, 0xBC)]
  | .sta => [(.izx, 0x81), (.zp, 0x85), (.abs, 0x8D), (.izy, 0x91), (.zpx, 0x95), (.aby, 0x99), (.abx, 0x9D)]
  | .stx => [(.zp, 0x86), (.abs, 0x8E), (.zpy, 0x96)]
  | .sty => [(.zp, 0x84), (.abs, 0x8C), (.zpx, 0x94)]
  | .tax => [(.imp, 0xAA)]
  | .tay => [(.imp, 0xA8)]
  | .txa => [(.imp, 0x8A)]
  | .tya => [(.imp, 0x98)]
  | .tsx => [(.imp, 0xBA)]
  | .txs => [(.imp, 0x9A)]
  | .adc => [(.izx, 0x61), (.zp, 0x65), (.imm, 0x69), (.abs, 0x6D), (.izy, 0x71), (.zpx, 0x75), (.aby, 0x79), (.abx, 0x7D)]
  | .sbc => [(.izx, 0xE1), (.zp, 0xE5), (.imm, 0xE9), (.abs, 0xED), (.izy, 0xF1), (.zpx, 0xF5), (.aby, 0xF9), (.abx, 0xFD)]
  | .and => [(.izx, 0x21), (.zp, 0x25), (.imm, 0x29), (.abs, 0x2D), (.izy, 0x31), (.zpx, 0x35), (.aby, 0x39), (.abx, 0x3D)]
  | .ora => [(.izx, 0x01), (.zp, 0x05), (.imm, 0x09), (.abs, 0x0D), (.izy, 0x11), (.zpx, 0x15), (.aby, 0x19), (.abx, 0x1D)]
  | .eor => [(.izx, 0x41), (.zp, 0x45), (.imm, 0x49), (.abs, 0x4D), (.izy, 0x51), (.zpx, 0x55), (.aby, 0x59), (.abx, 0x5D)]
  | .bit => [(.zp, 0x24), (.abs, 0x2C)]
  | .cmp => [(.izx, 0xC1), (.zp, 0xC5), (.imm, 0xC9), (.abs, 0xCD), (.izy, 0xD1), (.zpx, 0xD5), (.aby, 0xD9), (.abx, 0xDD)]
  | .cpx => [(.imm, 0xE0), (.zp, 0xE4), (.abs, 0xEC)]
  | .cpy => [(.imm, 0xC0), (.zp, 0xC4), (.abs, 0xCC)]
  | .inc => [(.zp, 0xE6), (.abs, 0xEE), (.zpx, 0xF6), (.abx, 0xFE)]
  | .dec => [(.zp, 0xC6), (.abs, 0xCE), (.zpx, 0xD6), (.abx, 0xDE)]
  | .inx => [(.imp, 0xE8)]
  | .iny => [(.imp, 0xC8)]
  | .dex => [(.imp, 0xCA)]
  | .dey => [(.imp, 0x88)]
  | .asl => [(.zp, 0x06), (.acc, 0x0A), (.abs, 0x0E), (.zpx, 0x16), (.abx, 0x1E)]
  | .lsr => [(.zp, 0x46), (.acc, 0x4A), (.abs, 0x4E), (.zpx, 0x56), (.abx, 0x5E)]
  | .rol => [(.zp, 0x26), (.acc, 0x2A), (.abs, 0x2E), (.zpx, 0x36), (.abx, 0x3E)]
  | .ror => [(.zp, 0x66), (.acc, 0x6A), (.abs, 0x6E), (.zpx, 0x76), (.abx, 0x7E)]
  | .pha => [(.imp, 0x48)]
  | .php => [(.imp, 0x08)]
  | .pla => [(.imp, 0x68)]
  | .plp => [(.imp, 0x28)]
  | .jmp => [(.abs, 0x4C), (.ind, 0x6C)]
  | .jsr => [(.abs, 0x20)]
  | .rts => [(.imp, 0x60)]
  | .rti => [(.imp, 0x40)]
  | .brk => [(.imp, 0x00)]
  | .bpl => [(.rel, 0x10)]
  | .bmi => [(.rel, 0x30)]
  | .bvc => [(.rel, 0x50)]
  | .bvs => [(.rel, 0x70)]
  | .bcc => [(.rel, 0x90)]
  | .bcs => [(.rel, 0xB0)]
  | .bne => [(.rel, 0xD0)]
  | .beq => [(.rel, 0xF0)]
  | .clc => [(.imp, 0x18)]
  | .sec => [(.imp, 0x38)]
  | .cli => [(.imp, 0x58)]
  | .sei => [(.imp, 0x78)]
  | .cld => [(.imp, 0xD8)]
  | .sed => [(.imp, 0xF8)]
  | .clv => [(.imp, 0xB8)]
  | .nop => [(.imp, 0xEA)]
  | .lax => [(.izx, 0xA3), (.zp, 0xA7), (.abs, 0xAF), (.izy, 0xB3), (.zpy, 0xB7), (.aby, 0xBF)]
  | .sax => [(.izx, 0x83), (.zp, 0x87), (.abs, 0x8F), (.zpy, 0x97)]
  | .sbcU => [(.imm, 0xEB)]
  | .dcp => [(.izx, 0xC3), (.zp, 0xC7), (.abs, 0xCF), (.izy, 0xD3), (.zpx, 0xD7), (.aby, 0xDB), (.abx, 0xDF)]
  | .isb => [(.izx, 0xE3), (.zp, 0xE7), (.abs, 0xEF), (.izy, 0xF3), (.zpx, 0xF7), (.aby, 0xFB), (.abx, 0xFF)]
  | .slo => [(.izx, 0x03), (.zp, 0x07), (.abs, 0x0F), (.izy, 0x13), (.zpx, 0x17), (.aby, 0x1B), (.abx, 0x1F)]
  | .rla => [(.izx, 0x23), (.zp, 0x27), (.abs, 0x2F), (.izy, 0x33), (.zpx, 0x37), (.aby, 0x3B), (.abx, 0x3F)]
  | .sre => [(.izx, 0x43), (.zp, 0x47), (.abs, 0x4F), (.izy, 0x53), (.zpx, 0x57), (.aby, 0x5B), (.abx, 0x5F)]
  | .rra => [(.izx, 0x63), (.zp, 0x67), (.abs, 0x6F), (.izy, 0x73), (.zpx, 0x77), (.aby, 0x7B), (.abx, 0x7F)]
  | .nopU => []
  | .anc => []
  | .alr => [(.imm, 0x4B)]
  | .arr => [(.imm, 0x6B)]
  | .axs => [(.imm, 0xCB)]
  | .las => [(.aby, 0xBB)]
  | .xaa => [(.imm, 0x8B)]
  | .lxa => [(.imm, 0xAB)]
  | .sha => [(.izy, 0x93), (.aby, 0x9F)]
  | .shx => [(.aby, 0x9E)]
  | .shy => [(.abx, 0x9C)]
  | .tas => [(.aby, 0x9B)]
  | .jam => []
  | .nmi => []
  | .irq => []

/-- The opcode byte of a mnemonic in a mode; 0 for a mode its rule does not list. -/
def opcodeFor (m : Mnemonic) (mode : Mode) : Byte := (m.encodings.lookup mode).getD 0

/-- A 16-bit operand as it lies in memory: low byte first (R140). -/
def wordBytes (a : Addr) : List Byte := [lo a, hi a]

/-- The operand bytes of a data operand. -/
def Operand.bytes : Operand → List Byte
  | .acc => []
  | .imm b | .zp b | .zpx b | .zpy b | .izx b | .izy b => [b]
  | .abs a | .abx a | .aby a => wordBytes a

/-- The operand bytes of a jump target. -/
def JumpTarget.bytes : JumpTarget → List Byte
  | .abs a | .ind a => wordBytes a

/-- The bytes of an instruction. The synthetic entries have none (R160). -/
def encode : Instr → List Byte
  | .lda o => opcodeFor .lda o.mode :: o.bytes
  | .ldx o => opcodeFor .ldx o.mode :: o.bytes
  | .ldy o => opcodeFor .ldy o.mode :: o.bytes
  | .sta o => opcodeFor .sta o.mode :: o.bytes
  | .stx o => opcodeFor .stx o.mode :: o.bytes
  | .sty o => opcodeFor .sty o.mode :: o.bytes
  | .tax => [opcodeFor .tax .imp]
  | .tay => [opcodeFor .tay .imp]
  | .txa => [opcodeFor .txa .imp]
  | .tya => [opcodeFor .tya .imp]
  | .tsx => [opcodeFor .tsx .imp]
  | .txs => [opcodeFor .txs .imp]
  | .adc o => opcodeFor .adc o.mode :: o.bytes
  | .sbc o => opcodeFor .sbc o.mode :: o.bytes
  | .and o => opcodeFor .and o.mode :: o.bytes
  | .ora o => opcodeFor .ora o.mode :: o.bytes
  | .eor o => opcodeFor .eor o.mode :: o.bytes
  | .bit o => opcodeFor .bit o.mode :: o.bytes
  | .cmp o => opcodeFor .cmp o.mode :: o.bytes
  | .cpx o => opcodeFor .cpx o.mode :: o.bytes
  | .cpy o => opcodeFor .cpy o.mode :: o.bytes
  | .inc o => opcodeFor .inc o.mode :: o.bytes
  | .dec o => opcodeFor .dec o.mode :: o.bytes
  | .inx => [opcodeFor .inx .imp]
  | .iny => [opcodeFor .iny .imp]
  | .dex => [opcodeFor .dex .imp]
  | .dey => [opcodeFor .dey .imp]
  | .asl o => opcodeFor .asl o.mode :: o.bytes
  | .lsr o => opcodeFor .lsr o.mode :: o.bytes
  | .rol o => opcodeFor .rol o.mode :: o.bytes
  | .ror o => opcodeFor .ror o.mode :: o.bytes
  | .pha => [opcodeFor .pha .imp]
  | .php => [opcodeFor .php .imp]
  | .pla => [opcodeFor .pla .imp]
  | .plp => [opcodeFor .plp .imp]
  | .jmp t => opcodeFor .jmp t.mode :: t.bytes
  | .jsr a => opcodeFor .jsr .abs :: wordBytes a
  | .rts => [opcodeFor .rts .imp]
  | .rti => [opcodeFor .rti .imp]
  | .brk => [opcodeFor .brk .imp]
  | .bpl b => [opcodeFor .bpl .rel, b]
  | .bmi b => [opcodeFor .bmi .rel, b]
  | .bvc b => [opcodeFor .bvc .rel, b]
  | .bvs b => [opcodeFor .bvs .rel, b]
  | .bcc b => [opcodeFor .bcc .rel, b]
  | .bcs b => [opcodeFor .bcs .rel, b]
  | .bne b => [opcodeFor .bne .rel, b]
  | .beq b => [opcodeFor .beq .rel, b]
  | .clc => [opcodeFor .clc .imp]
  | .sec => [opcodeFor .sec .imp]
  | .cli => [opcodeFor .cli .imp]
  | .sei => [opcodeFor .sei .imp]
  | .cld => [opcodeFor .cld .imp]
  | .sed => [opcodeFor .sed .imp]
  | .clv => [opcodeFor .clv .imp]
  | .nop => [opcodeFor .nop .imp]
  | .lax o => opcodeFor .lax o.mode :: o.bytes
  | .sax o => opcodeFor .sax o.mode :: o.bytes
  | .sbcU b => [opcodeFor .sbcU .imm, b]
  | .dcp o => opcodeFor .dcp o.mode :: o.bytes
  | .isb o => opcodeFor .isb o.mode :: o.bytes
  | .slo o => opcodeFor .slo o.mode :: o.bytes
  | .rla o => opcodeFor .rla o.mode :: o.bytes
  | .sre o => opcodeFor .sre o.mode :: o.bytes
  | .rra o => opcodeFor .rra o.mode :: o.bytes
  | .nopU op o => op :: (o.map Operand.bytes).getD []
  | .anc op b => [op, b]
  | .alr b => [opcodeFor .alr .imm, b]
  | .arr b => [opcodeFor .arr .imm, b]
  | .axs b => [opcodeFor .axs .imm, b]
  | .las a => opcodeFor .las .aby :: wordBytes a
  | .xaa b => [opcodeFor .xaa .imm, b]
  | .lxa b => [opcodeFor .lxa .imm, b]
  | .sha o => opcodeFor .sha o.mode :: o.bytes
  | .shx a => opcodeFor .shx .aby :: wordBytes a
  | .shy a => opcodeFor .shy .abx :: wordBytes a
  | .tas a => opcodeFor .tas .aby :: wordBytes a
  | .jam op => [op]
  | .nmi => []
  | .irq => []

end Sys2Proof
end

