-- ==== Sys2Proof/Machine/State.lean ====
section
/-! DEFINITION. The state of the CORE as plain data (10_state.md), the reasons a step or a load can stop, and the
state right after reset. INVENTORY.md lists every field with its rule. -/

namespace Sys2Proof.Machine

/-- The six status flags (R35). There is no stored break flag and no stored bit 5 (R36). -/
structure Flags where
  n : Bool
  v : Bool
  d : Bool
  i : Bool
  z : Bool
  c : Bool
deriving DecidableEq, Repr

/-- A backing store: address and byte pairs in one canonical form, addresses strictly rising and no entry equal to
what an unlisted address reads as. -/
abbrev Memory := List Host.Cell

/-- What an unlisted address of a store reads as. The spec draws the power-on contents of every RAM (R46, R47, R49):
DESIGN CHOICE 0, log entry 4. -/
def Memory.unlisted : Byte := 0

/-- Nametable mirroring (R88, R96). -/
inductive Mirroring where
  | vertical
  | horizontal
  | fourScreen
deriving DecidableEq, Repr

/-- The parsed cartridge image (R48, R88). `chr` is pattern RAM when `chrPages` is 0 (R92). -/
structure Cartridge where
  prgPages  : Nat
  chrPages  : Nat
  mapper    : Nat
  mirroring : Mirroring
  prg       : Memory
  chr       : Memory
deriving DecidableEq, Repr

/-- A written line of the frame buffer: its row and the colour of each of its 256 pixels (R432, R456). Log entry 9. -/
abbrev FrameRow := Nat × List Colour

/-- The PPU's state (R49). -/
structure Ppu where
  dot        : Nat
  scanline   : Nat
  ctrl       : Byte
  mask       : Byte
  vblank     : Bool
  s0hit      : Bool
  overflow   : Bool
  oamAddr    : Byte
  v          : VramReg
  t          : VramReg
  x          : BitVec 3
  w          : Bool
  rdBuf      : Byte
  oam        : Memory
  palette    : Memory
  ciram      : Memory
  fb         : List FrameRow
  frameReady : Bool
deriving DecidableEq, Repr

/-- One controller port: the host's button byte and the shift register (R50, R473). -/
structure Pad where
  buttons : Byte
  shift   : Byte
deriving DecidableEq, Repr

/-- The controller latch: two ports and one shared strobe bit (R50). -/
structure Controllers where
  pad1   : Pad
  pad2   : Pad
  strobe : Bool
deriving DecidableEq, Repr

/-- How far the boot sequence has run (R500 to R503). It says which registers have a value to read: none before the first
`reset()` (R30 to R32, R500), all but pc between `reset()` and `start()` (R34). -/
inductive Phase where
  | poweredOn
  | afterReset
  | running
deriving DecidableEq, Repr

/-- The machine. `cycles` counts the current step's cycles (R39); `draws` is the model's own counter of `OpenBus()`
values drawn so far (log entry 6). -/
structure State where
  a           : Byte
  x           : Byte
  y           : Byte
  sp          : Byte
  pc          : Addr
  p           : Flags
  cycles      : Nat
  totalCycles : Nat
  halted      : Bool
  nmiPending  : Bool
  irqPending  : Bool
  ram         : Memory
  prgRam      : Memory
  cart        : Cartridge
  ppu         : Ppu
  pads        : Controllers
  params      : Params
  phase       : Phase
  draws       : Nat
deriving DecidableEq, Repr

/-- Why the machine stops with a fault. No step faults (R10, R400). -/
inductive Fault where
  /-- `parseImage`: the magic bytes do not match (R89, R504). No session exists. Safe. -/
  | badMagic
deriving DecidableEq, Repr

/-- Why the model gives no meaning. -/
inductive Refusal where
  /-- An arm of `exec` that has no meaning yet. No arm has it now. Safe. -/
  | notModelled (mnemonic : String)
  /-- The meanings of XAA, LXA, SHA, SHX, SHY and TAS when UNSTABLE_MODE = refuse (R366). Safe. -/
  | unstableOpcode
  /-- A step or a trace snapshot before the first `reset()`: the CPU registers have no value to read (R30, R500). Safe. -/
  | beforeReset
  /-- A step or a trace snapshot between `reset()` and `start()`: pc has no value to read (R34). Safe. -/
  | beforeStart
  /-- `parseImage`: the mapper number is not 0 (R90). Safe. -/
  | unsupportedMapper
  /-- `parseImage`: the number of PRG pages is not 1 or 2 (R89, R91). Safe. -/
  | unsupportedPrgPages
  /-- `parseImage`: there is more than one CHR page (R92). Safe. -/
  | unsupportedChrPages
  /-- `parseImage`: the image is shorter than its header says (R89). Safe. -/
  | shortImage
deriving DecidableEq, Repr

/-- The cartridge of `State.reset`: one blank PRG page, pattern RAM, horizontal mirroring. The spec has no session
without an image (R89): DESIGN CHOICE, log entry 5. -/
def Cartridge.blank : Cartridge where
  prgPages  := 1
  chrPages  := 0
  mapper    := 0
  mirroring := .horizontal
  prg       := []
  chr       := []

/-- The flags after `reset()`: "clears all flags except interrupt-disable (set)" (R501). -/
def Flags.atReset : Flags :=
  { n := false, v := false, d := false, i := true, z := false, c := false }

/-- The PPU at power-on (R49, R500). -/
def Ppu.atPowerOn : Ppu where
  dot        := 0
  scanline   := 0
  ctrl       := 0
  mask       := 0
  vblank     := false
  s0hit      := false
  overflow   := false
  oamAddr    := 0
  v          := 0
  t          := 0
  x          := 0
  w          := false
  rdBuf      := 0
  oam        := []
  palette    := []
  ciram      := []
  fb         := []
  frameReady := false

/-- The controllers at power-on (R50, R500). -/
def Controllers.atPowerOn : Controllers where
  pad1   := { buttons := 0, shift := 0 }
  pad2   := { buttons := 0, shift := 0 }
  strobe := false

/-- The machine right after power-on, `reset()` and `start()` (R500 to R503) with a blank cartridge, whose reset
vector is 0x0000. Log entries 3, 4, 5, 6. -/
def State.reset : State where
  a           := 0
  x           := 0
  y           := 0
  sp          := 0xFD
  pc          := 0
  p           := Flags.atReset
  cycles      := 0
  totalCycles := 7
  halted      := false
  nmiPending  := false
  irqPending  := false
  ram         := []
  prgRam      := []
  cart        := Cartridge.blank
  ppu         := Ppu.atPowerOn
  pads        := Controllers.atPowerOn
  params      := Params.atReset
  phase       := .running
  draws       := 0

end Sys2Proof.Machine
end

