-- ==== Sys2Proof/Machine/Fields.lean ====
section
/-! DEFINITION. One update per field of State. No instruction writes `params`, so it has none. -/

namespace Sys2Proof.Machine

/-- a (R30). -/
def State.setA (s : State) (val : Byte) : State := { s with a := val }

/-- x (R31). -/
def State.setX (s : State) (val : Byte) : State := { s with x := val }

/-- y (R32). -/
def State.setY (s : State) (val : Byte) : State := { s with y := val }

/-- sp (R33). -/
def State.setSp (s : State) (val : Byte) : State := { s with sp := val }

/-- pc (R34). -/
def State.setPc (s : State) (val : Addr) : State := { s with pc := val }

/-- p (R35). -/
def State.setP (s : State) (val : Flags) : State := { s with p := val }

/-- cycles (R39). -/
def State.setCycles (s : State) (val : Nat) : State := { s with cycles := val }

/-- totalCycles (R40). -/
def State.setTotalCycles (s : State) (val : Nat) : State := { s with totalCycles := val }

/-- halted (R42). -/
def State.setHalted (s : State) (val : Bool) : State := { s with halted := val }

/-- nmiPending (R402). -/
def State.setNmi (s : State) (val : Bool) : State := { s with nmiPending := val }

/-- irqPending (R403). -/
def State.setIrq (s : State) (val : Bool) : State := { s with irqPending := val }

/-- ram (R46). -/
def State.setRam (s : State) (val : Memory) : State := { s with ram := val }

/-- prgRam (R47). -/
def State.setPrgRam (s : State) (val : Memory) : State := { s with prgRam := val }

/-- cart (R48). -/
def State.setCart (s : State) (val : Cartridge) : State := { s with cart := val }

/-- ppu (R49). -/
def State.setPpu (s : State) (val : Ppu) : State := { s with ppu := val }

/-- pads (R50). -/
def State.setPads (s : State) (val : Controllers) : State := { s with pads := val }

/-- phase (R500 to R503). -/
def State.setPhase (s : State) (val : Phase) : State := { s with phase := val }

/-- draws (R79). -/
def State.setDraws (s : State) (val : Nat) : State := { s with draws := val }

/-- `cycles +: n` (R8, R39). -/
def State.charge (s : State) (n : Nat) : State := s.setCycles (s.cycles + n)

end Sys2Proof.Machine
end

