-- ==== Sys2Proof/Machine/Memory.lean ====
section
/-! DEFINITION. Keyed lists in strictly rising order, and the byte memories built from them: what an unlisted address
reads as, one read, one write, and the canonical form. -/

namespace Sys2Proof.Machine

/-- The value at a key. -/
def keyedGet {α : Type} (k : Nat) : List (Nat × α) → Option α
  | [] => none
  | (j, v) :: rest => if k = j then some v else keyedGet k rest

/-- The list with a value at a key, in rising order. -/
def keyedSet {α : Type} (k : Nat) (v : α) : List (Nat × α) → List (Nat × α)
  | [] => [(k, v)]
  | (j, u) :: rest =>
    if k < j then (k, v) :: (j, u) :: rest
    else if k = j then (k, v) :: rest
    else (j, u) :: keyedSet k v rest

/-- The list without a key. -/
def keyedErase {α : Type} (k : Nat) : List (Nat × α) → List (Nat × α)
  | [] => []
  | (j, u) :: rest => if k = j then rest else (j, u) :: keyedErase k rest

/-- The keys rise strictly, and the first is at least `low`. -/
def keyedRising {α : Type} (low : Nat) : List (Nat × α) → Bool
  | [] => true
  | (j, _) :: rest => decide (low ≤ j) && keyedRising (j + 1) rest

/-- One byte of a store. -/
def Memory.read (m : Memory) (k : Nat) : Byte := (keyedGet k m).getD Memory.unlisted

/-- A store with one byte written: an entry that would equal what an unlisted address reads as is dropped. -/
def Memory.write (m : Memory) (k : Nat) (b : Byte) : Memory :=
  if b = Memory.unlisted then keyedErase k m else keyedSet k b m

/-- The canonical form: addresses strictly rising, no entry equal to what an unlisted address reads as. -/
def Memory.wf (m : Memory) : Bool := keyedRising 0 m && m.all (fun cell => cell.2 != Memory.unlisted)

/-- Every listed address is below `size`. -/
def Memory.below (m : Memory) (size : Nat) : Bool := m.all (fun cell => decide (cell.1 < size))

/-- The store that holds the bytes of a list from address `base` up. -/
def Memory.ofBytesFrom (base : Nat) : List Byte → Memory
  | [] => []
  | b :: rest =>
    if b = Memory.unlisted then Memory.ofBytesFrom (base + 1) rest
    else (base, b) :: Memory.ofBytesFrom (base + 1) rest

end Sys2Proof.Machine
end

