-- ==== Sys2Proof/Machine/PpuBus.lean ====
section
/-! DEFINITION. The PPU's 14-bit address space (R94 to R99) and the bytes of OAM (R100). -/

namespace Sys2Proof.Machine

/-- What answers an address of the PPU space. -/
inductive PpuTarget where
  /-- Pattern memory, pages 0 to 7 (R95), by its address. -/
  | pattern (k : Nat)
  /-- Nametable RAM (R96, R97), by its index in `ciram`. -/
  | nametable (k : Nat)
  /-- The palette table (R98), by its entry after the alias. -/
  | palette (k : Nat)
deriving DecidableEq, Repr

/-- The physical bank of a logical nametable page: the table of R96. -/
def nametableBank (m : Mirroring) (page : Nat) : Nat :=
  match m with
  | .vertical => page % 2
  | .horizontal => page / 2
  | .fourScreen => page

/-- The `ciram` index of an address 0x2000-0x2FFF: its page's bank and the place in the page (R96). -/
def ciramIndex (m : Mirroring) (a : PpuAddr) : Nat :=
  nametableBank m (a.toNat / 0x400 % 4) * 0x400 + a.toNat % 0x400

/-- The palette entry of an address: mirrored every 32 bytes, entries 0x10, 0x14, 0x18, 0x1C aliased onto 0x00, 0x04,
0x08, 0x0C (R98). -/
def paletteIndex (a : PpuAddr) : Nat :=
  let i := a.toNat % 0x20
  if i = 0x10 ∨ i = 0x14 ∨ i = 0x18 ∨ i = 0x1C then i - 0x10 else i

/-- The decode of the PPU space (R94 to R98). -/
def ppuDecode (m : Mirroring) (a : PpuAddr) : PpuTarget :=
  if a.toNat < 0x2000 then .pattern a.toNat
  else if a.toNat < 0x3000 then .nametable (ciramIndex m a)
  else if a.toNat < 0x3F00 then .nametable (ciramIndex m (a - 0x1000))
  else .palette (paletteIndex a)

/-- `PpuRead(addr)` (R99); a palette entry has six bits, bits 7-6 read 0 (R98). -/
def ppuRead (cart : Cartridge) (ppu : Ppu) (a : PpuAddr) : Byte :=
  match ppuDecode cart.mirroring a with
  | .pattern k => cart.chr.read k
  | .nametable k => ppu.ciram.read k
  | .palette k => ppu.palette.read k &&& 0x3F

/-- `PpuWrite(addr, v)` (R99): pattern ROM ignores it (R95), the palette keeps six bits (R98). -/
def ppuWrite (a : PpuAddr) (b : Byte) (s : State) : State :=
  match ppuDecode s.cart.mirroring a with
  | .pattern k =>
    if s.cart.chrPages = 0 then s.setCart { s.cart with chr := s.cart.chr.write k b } else s
  | .nametable k => s.setPpu { s.ppu with ciram := s.ppu.ciram.write k b }
  | .palette k => s.setPpu { s.ppu with palette := s.ppu.palette.write k (b &&& 0x3F) }

/-- The address register 7 uses: bit 14 of v is dropped (R458). -/
def vramAddr (v : VramReg) : PpuAddr := v.setWidth 14

/-- The increment of v by a register-7 access: 1, or 32 when bit 2 of PPUCTRL is set (R447, R450). -/
def vramNext (ppu : Ppu) : VramReg := ppu.v + (if ppu.ctrl.getLsbD 2 then 32 else 1)

end Sys2Proof.Machine
end

