-- ==== Sys2Proof/Machine/PpuRegs.lean ====
section
/-! DEFINITION. The eight PPU registers as the CPU sees them (R438 to R449), and `OpenBus()` (R79). -/

namespace Sys2Proof.Machine

/-- `OpenBus()` (R79): the next free value, and the state that has drawn it. Log entry 6. -/
def openBus (s : State) : Byte × State := (Config.openBus s.draws, s.setDraws (s.draws + 1))

/-- PPUSTATUS with its low five bits taken from a given byte (R441, R452). -/
def statusByte (ppu : Ppu) (low : Byte) : Byte :=
  (if ppu.vblank then 0x80 else 0) ||| (if ppu.s0hit then 0x40 else 0) ||| (if ppu.overflow then 0x20 else 0) |||
    (low &&& 0x1F)

/-- Register 2 read: the status byte; vblank and the toggle are cleared (R441). -/
def readStatus (s : State) : Byte × State :=
  let low := openBus s
  (statusByte s.ppu low.1, low.2.setPpu { s.ppu with vblank := false, w := false })

/-- Register 4 read (R444). -/
def readOamData (s : State) : Byte × State := (s.ppu.oam.read s.ppu.oamAddr.toNat, s)

/-- Register 7 read: the buffer, then its refill and the increment of v (R448). -/
def readPpuData (s : State) : Byte × State :=
  (s.ppu.rdBuf,
   s.setPpu { s.ppu with rdBuf := ppuRead s.cart s.ppu (vramAddr s.ppu.v), v := vramNext s.ppu })

/-- A CPU read of PPU register r (R438, R449). -/
def ppuRegRead (r : Nat) (s : State) : Byte × State :=
  match r with
  | 2 => readStatus s
  | 4 => readOamData s
  | 7 => readPpuData s
  | _ => openBus s

/-- Register 0 write: PPUCTRL, and the base nametable bits of t (R439). -/
def writeCtrl (d : Byte) (ppu : Ppu) : Ppu :=
  { ppu with ctrl := d, t := (ppu.t &&& ~~~(0x0C00 : VramReg)) ||| (d &&& 0x03).setWidth 15 <<< 10 }

/-- Register 1 write: PPUMASK (R440). -/
def writeMask (d : Byte) (ppu : Ppu) : Ppu := { ppu with mask := d }

/-- Register 3 write: OAMADDR (R442). -/
def writeOamAddr (d : Byte) (ppu : Ppu) : Ppu := { ppu with oamAddr := d }

/-- Register 4 write: OAMDATA (R443). -/
def writeOamData (d : Byte) (ppu : Ppu) : Ppu :=
  { ppu with oam := ppu.oam.write ppu.oamAddr.toNat d, oamAddr := ppu.oamAddr + 1 }

/-- Register 5 write: PPUSCROLL, X then Y (R445). -/
def writeScroll (d : Byte) (ppu : Ppu) : Ppu :=
  if ppu.w then
    { ppu with
      t := (ppu.t &&& ~~~(0x73E0 : VramReg)) ||| (d &&& 0x07).setWidth 15 <<< 12 ||| (d &&& 0xF8).setWidth 15 <<< 2
      w := false }
  else
    { ppu with
      t := (ppu.t &&& ~~~(0x001F : VramReg)) ||| (d >>> 3).setWidth 15
      x := d.setWidth 3
      w := true }

/-- Register 6 write: PPUADDR, the high byte and then the low byte, which commits t to v (R446). -/
def writeAddr (d : Byte) (ppu : Ppu) : Ppu :=
  if ppu.w then
    let t := (ppu.t &&& 0x7F00) ||| d.setWidth 15
    { ppu with t := t, v := t, w := false }
  else
    { ppu with t := (ppu.t &&& 0x00FF) ||| (d &&& 0x3F).setWidth 15 <<< 8, w := true }

/-- Register 7 write: the byte at v, then the increment of v (R447). -/
def writePpuData (d : Byte) (s : State) : State :=
  let s := ppuWrite (vramAddr s.ppu.v) d s
  s.setPpu { s.ppu with v := vramNext s.ppu }

/-- A CPU write of PPU register r (R438); register 2 ignores it (R449). -/
def ppuRegWrite (r : Nat) (d : Byte) (s : State) : State :=
  match r with
  | 0 => s.setPpu (writeCtrl d s.ppu)
  | 1 => s.setPpu (writeMask d s.ppu)
  | 3 => s.setPpu (writeOamAddr d s.ppu)
  | 4 => s.setPpu (writeOamData d s.ppu)
  | 5 => s.setPpu (writeScroll d s.ppu)
  | 6 => s.setPpu (writeAddr d s.ppu)
  | 7 => writePpuData d s
  | _ => s

end Sys2Proof.Machine
end

