-- ==== Sys2Proof/Machine/Bus.lean ====
section
/-! DEFINITION. The CPU's address space: the decode of R71, the controllers (R470 to R473), OAM-DMA (R101, R102), and
the two primitives `MemRead` and `MemWrite` with their side effects (R70 to R80). -/

namespace Sys2Proof.Machine

/-- What answers a CPU address (R71, R74). -/
inductive BusTarget where
  /-- Internal RAM (R72). -/
  | ram (k : Nat)
  /-- A PPU register (R73). -/
  | ppuReg (r : Nat)
  /-- 0x4014: OAM-DMA (R74, R101). -/
  | oamDma
  /-- 0x4016: controller port 1 and the strobe (R74). -/
  | pad1
  /-- 0x4017: controller port 2 (R74). -/
  | pad2
  /-- The other addresses of 0x4000-0x401F (R74) and the unmapped range 0x4020-0x5FFF (R75). -/
  | nothing
  /-- The PRG-RAM window (R76). -/
  | prgRam (k : Nat)
  /-- The PRG-ROM window: bank window and offset (R77). -/
  | prgRom (window offset : Nat)
deriving DecidableEq, Repr

/-- The decode of the 0x4000-0x5FFF block (R74, R75). -/
def ioDecode (k : Nat) : BusTarget :=
  match k with
  | 0x4014 => .oamDma
  | 0x4016 => .pad1
  | 0x4017 => .pad2
  | _ => .nothing

/-- The decode of a CPU address by its top three bits (R71). -/
def busDecode (a : Addr) : BusTarget :=
  match a.toNat / 0x2000 with
  | 0 => .ram (a.toNat % 0x800)
  | 1 => .ppuReg (a.toNat % 8)
  | 2 => ioDecode a.toNat
  | 3 => .prgRam (a.toNat % 0x2000)
  | n => .prgRom (n - 4) (a.toNat % 0x2000)

/-- `bank_map` of mapper 0 (R91). -/
def bankMap (prgPages : Nat) : List Nat := if prgPages = 1 then [0, 1, 0, 1] else [0, 1, 2, 3]

/-- The PRG byte a window and offset select (R77). -/
def prgIndex (cart : Cartridge) (window offset : Nat) : Nat :=
  (bankMap cart.prgPages).getD window 0 * 0x2000 + offset

/-- The serial bit of a port and the port after the read (R472). -/
def padBit (strobe : Bool) (pad : Pad) : Bool × Pad :=
  if strobe then (pad.buttons.getLsbD 0, pad)
  else (pad.shift.getLsbD 0, { pad with shift := pad.shift >>> 1 ||| 0x80 })

/-- The byte a controller read gives: the serial bit under seven free bits (R472). -/
def padByte (free : Byte) (serial : Bool) : Byte := (free &&& 0xFE) ||| (if serial then 1 else 0)

/-- A read of 0x4016 (R472). -/
def readPad1 (s : State) : Byte × State :=
  let free := openBus s
  let r := padBit s.pads.strobe s.pads.pad1
  (padByte free.1 r.1, free.2.setPads { s.pads with pad1 := r.2 })

/-- A read of 0x4017 (R472). -/
def readPad2 (s : State) : Byte × State :=
  let free := openBus s
  let r := padBit s.pads.strobe s.pads.pad2
  (padByte free.1 r.1, free.2.setPads { s.pads with pad2 := r.2 })

/-- A write of 0x4016: the strobe bit, and both shift registers latched while it is 1 (R471). -/
def writeStrobe (d : Byte) (pads : Controllers) : Controllers :=
  if d.getLsbD 0 then
    { strobe := true
      pad1 := { pads.pad1 with shift := pads.pad1.buttons }
      pad2 := { pads.pad2 with shift := pads.pad2.buttons } }
  else { pads with strobe := false }

/-- A read answered by a target. -/
def readTarget (tgt : BusTarget) (s : State) : Byte × State :=
  match tgt with
  | .ram k => (s.ram.read k, s)
  | .ppuReg r => ppuRegRead r s
  | .pad1 => readPad1 s
  | .pad2 => readPad2 s
  | .oamDma | .nothing => openBus s
  | .prgRam k =>
    match s.params.prgRamMode with
    | .ram => (s.prgRam.read k, s)
    | .stub => openBus s
  | .prgRom w k => (s.cart.prg.read (prgIndex s.cart w k), s)

/-- `MemRead(addr, 1)` (R8, R70). -/
def memRead (a : Addr) (s : State) : Byte × State := readTarget (busDecode a) s

/-- n bytes from index i of a page copied into OAM, each read through the CPU bus (R101). -/
def dmaCopy (page : Byte) : Nat → Nat → State → State
  | 0, _, s => s
  | n + 1, i, s =>
    let r := memRead (w16 page (BitVec.ofNat 8 i)) s
    dmaCopy page n (i + 1) (r.2.setPpu { r.2.ppu with oam := r.2.ppu.oam.write i r.1 })

/-- `DmaStall` (R102, R201). -/
def dmaStall : Nat := 514

/-- OAM-DMA: the whole copy, and the stall added to this step's cycles (R101, R102). -/
def oamDma (page : Byte) (s : State) : State := (dmaCopy page 256 0 s).charge dmaStall

/-- A write taken by a target. -/
def writeTarget (tgt : BusTarget) (b : Byte) (s : State) : State :=
  match tgt with
  | .ram k => s.setRam (s.ram.write k b)
  | .ppuReg r => ppuRegWrite r b s
  | .oamDma => oamDma b s
  | .pad1 => s.setPads (writeStrobe b s.pads)
  | .pad2 | .nothing => s
  | .prgRam k =>
    match s.params.prgRamMode with
    | .ram => s.setPrgRam (s.prgRam.write k b)
    | .stub => s
  | .prgRom _ _ => s

/-- `MemWrite(addr, 1, v)` (R8, R70). -/
def memWrite (a : Addr) (b : Byte) (s : State) : State := writeTarget (busDecode a) b s

/-- `Read16(addr)`: low byte first, the next address modulo 65536 (R81, R82). -/
def read16 (a : Addr) (s : State) : Addr × State :=
  let l := memRead a s
  let h := memRead (a + 1) l.2
  (w16 h.1 l.1, h.2)

/-- The address of the high byte of a pointer that stays in its page (R83). -/
def nextInPage (a : Addr) : Addr := (a &&& 0xFF00) ||| ((a + 1) &&& 0x00FF)

/-- `Read16Page(addr)` (R83). -/
def read16Page (a : Addr) (s : State) : Addr × State :=
  let l := memRead a s
  let h := memRead (nextInPage a) l.2
  (w16 h.1 l.1, h.2)

end Sys2Proof.Machine
end

