-- ==== Sys2Proof/Machine/Flags.lean ====
section
/-! DEFINITION. Every flag computation and the arithmetic it comes from: `SetNZ` (R9), the status byte (R37, R38), the
adder (R250), the comparison (R251), the shifts (R290). -/

namespace Sys2Proof.Machine

/-- A flag as a bit. -/
def bit (b : Bool) : Byte := if b then 1 else 0

/-- `SetNZ(v)` (R9). -/
def Flags.setNZ (f : Flags) (v : Byte) : Flags := { f with n := v.msb, z := v == 0 }

/-- `PackP(b)`: the status byte that is pushed, bit 5 always set, bit 4 the break bit (R37). -/
def Flags.pack (f : Flags) (b : Bool) : Byte :=
  bit f.n <<< 7 ||| bit f.v <<< 6 ||| 0x20 ||| bit b <<< 4 ||| bit f.d <<< 3 ||| bit f.i <<< 2 |||
    bit f.z <<< 1 ||| bit f.c

/-- `UnpackP(s)`: the flags of a pulled status byte, bits 5 and 4 ignored (R38). -/
def Flags.unpack (s : Byte) : Flags :=
  { n := s.getLsbD 7, v := s.getLsbD 6, d := s.getLsbD 3, i := s.getLsbD 2, z := s.getLsbD 1, c := s.getLsbD 0 }

/-- `AddC(a, m, c)`: the sum, the carry out and the signed overflow (R250). -/
def addC (a m : Byte) (c : Bool) : Byte × Bool × Bool :=
  let s := a.toNat + m.toNat + c.toNat
  let r : Byte := BitVec.ofNat 8 s
  (r, decide (255 < s), ((a ^^^ r) &&& (m ^^^ r)).msb)

/-- The flags of an addition: C and V from the adder, N and Z from the sum (R252). -/
def Flags.ofAdd (f : Flags) (sum : Byte × Bool × Bool) : Flags :=
  { f.setNZ sum.1 with c := sum.2.1, v := sum.2.2 }

/-- `Compare(reg, m)` (R251). -/
def Flags.compare (f : Flags) (reg m : Byte) : Flags :=
  { f with c := decide (m ≤ reg), z := reg == m, n := (reg - m).msb }

/-- `Shl(v)` (R290). -/
def shl (v : Byte) : Byte × Bool := (v <<< 1, v.msb)

/-- `Shr(v)` (R290). -/
def shr (v : Byte) : Byte × Bool := (v >>> 1, v.getLsbD 0)

/-- `Rol(v, c)` (R290). -/
def rol (v : Byte) (c : Bool) : Byte × Bool := (v <<< 1 ||| bit c, v.msb)

/-- `Ror(v, c)` (R290). -/
def ror (v : Byte) (c : Bool) : Byte × Bool := (v >>> 1 ||| bit c <<< 7, v.getLsbD 0)

/-- The flags of a shift: C the bit shifted out, N and Z from the result (R291 to R294). -/
def Flags.ofShift (f : Flags) (r : Byte × Bool) : Flags := { f.setNZ r.1 with c := r.2 }

end Sys2Proof.Machine
end

