-- ==== Sys2Proof/Machine/Ops.lean ====
section
/-! DEFINITION. The operations the meanings share: fetch (R140, R194), the stack (R43, R44), taking an interrupt
(R405, R314) and returning from one (R313, R409), halting (R42), and a program byte placed from outside. -/

namespace Sys2Proof.Machine

/-- Every meaning's answer. -/
abbrev Result := Host.Outcome State Fault Refusal

/-- A fetch: the byte at pc, and pc one further (R140). -/
def fetchByte (s : State) : Byte × State :=
  let r := memRead s.pc s
  (r.1, r.2.setPc (s.pc + 1))

/-- A write to A with its flags (R9). -/
def State.loadA (s : State) (v : Byte) : State := (s.setA v).setP (s.p.setNZ v)

/-- A write to X with its flags (R9). -/
def State.loadX (s : State) (v : Byte) : State := (s.setX v).setP (s.p.setNZ v)

/-- A write to Y with its flags (R9). -/
def State.loadY (s : State) (v : Byte) : State := (s.setY v).setP (s.p.setNZ v)

/-- The address of the stack byte SP points at (R33). -/
def stackAddr (sp : Byte) : Addr := 0x0100 + sp.setWidth 16

/-- `Push(v)`: write, then decrement (R43). -/
def push (b : Byte) (s : State) : State :=
  let t := memWrite (stackAddr s.sp) b s
  t.setSp (s.sp - 1)

/-- `Pull()`: increment, then read (R44). -/
def pull (s : State) : Byte × State := memRead (stackAddr (s.sp + 1)) (s.setSp (s.sp + 1))

/-- A 16-bit value pushed, high byte first (R311, R405). -/
def push16 (w : Addr) (s : State) : State := push (lo w) (push (hi w) s)

/-- A 16-bit value pulled, low byte first (R312, R313). -/
def pull16 (s : State) : Addr × State :=
  let l := pull s
  let h := pull l.2
  (w16 h.1 l.1, h.2)

/-- The vector of NMI (R86, R401). -/
def nmiVector : Addr := 0xFFFA

/-- The vector of reset (R86, R401). -/
def resetVector : Addr := 0xFFFC

/-- The vector IRQ and BRK share (R86, R401). -/
def irqVector : Addr := 0xFFFE

/-- Taking an interrupt: the return address pushed, then the status byte with the given break bit, I set, pc loaded
from the vector. `InterruptEntry` of R405 with ret = pc and b = 0; the body of BRK with b = 1 (R314). -/
def enterInterrupt (vec ret : Addr) (brk : Bool) (s : State) : State :=
  let s := push (s.p.pack brk) (push16 ret s)
  let s := s.setP { s.p with i := true }
  let r := read16 vec s
  r.2.setPc r.1

/-- Returning from an interrupt: the flags pulled, then pc (R313, R409). -/
def returnFromInterrupt (s : State) : State :=
  let st := pull s
  let s := st.2.setP (Flags.unpack st.1)
  let r := pull16 s
  r.2.setPc r.1

/-- `Halt()` (R8, R42). -/
def halt (s : State) : State := s.setHalted true

/-- Whether a byte can be placed at an address from outside the machine: RAM, PRG-RAM, program ROM. -/
def placeable (params : Params) (a : Addr) : Bool :=
  match busDecode a with
  | .ram _ | .prgRom _ _ => true
  | .prgRam _ => params.prgRamMode == .ram
  | .ppuReg _ | .oamDma | .pad1 | .pad2 | .nothing => false

/-- A byte of a program placed from outside the machine, where a fetch at the address will read it; nothing else
changes. -/
def placeByte (a : Addr) (b : Byte) (s : State) : State :=
  match busDecode a with
  | .ram k => s.setRam (s.ram.write k b)
  | .prgRam k => s.setPrgRam (s.prgRam.write k b)
  | .prgRom w k => s.setCart { s.cart with prg := s.cart.prg.write (prgIndex s.cart w k) b }
  | .ppuReg _ | .oamDma | .pad1 | .pad2 | .nothing => s

/-- Bytes placed from an address up. -/
def placeBytes (a : Addr) : List Byte → State → State
  | [], s => s
  | b :: rest, s => placeBytes (a + 1) rest (placeByte a b s)

/-- The next step fetches: the session is started, and it takes neither an interrupt nor the halted branch. -/
def readyToFetch (s : State) : State := (((s.setPhase .running).setHalted false).setNmi false).setIrq false

/-- The three bytes of the longest instruction placed where the next step fetches: at pc, or from 0x0200 with pc there
when an address at pc holds no stored byte. -/
def placeProgram (bytes : List Byte) (s : State) : State :=
  let here := placeable s.params s.pc && placeable s.params (s.pc + 1) && placeable s.params (s.pc + 2)
  let s := if here then s else s.setPc 0x0200
  placeBytes s.pc bytes (readyToFetch s)

/-- The state whose next step runs a synthetic entry: the line set, and nothing that comes before it or masks it (R192,
R193). -/
def selectSynthetic (s : State) : Instr → State
  | .irq => ((readyToFetch s).setIrq true).setP { s.p with i := false }
  | _ => ((s.setPhase .running).setHalted false).setNmi true

end Sys2Proof.Machine
end

