-- ==== Sys2Proof/Machine/Timing.lean ====
section
/-! DEFINITION. The base cost and the page-penalty mark of each row (R156, R157), by the kind of access its instruction
makes. -/

namespace Sys2Proof.Machine

/-- The base cost of a reading instruction by mode (the "Encoding" lines of R220 and its like). -/
def readCost : Mode → Nat
  | .imm | .imp | .acc | .rel => 2
  | .zp => 3
  | .zpx | .zpy | .abs | .abx | .aby => 4
  | .izx => 6
  | .izy | .ind => 5

/-- The base cost of a storing instruction by mode: the indexed forms already count a page cross (R223). -/
def storeCost : Mode → Nat
  | .zp => 3
  | .zpx | .zpy | .abs => 4
  | .abx | .aby => 5
  | .izx | .izy => 6
  | .imp | .acc | .imm | .ind | .rel => 2

/-- The base cost of a read-modify-write instruction by mode (R261, R291, R354). -/
def modifyCost : Mode → Nat
  | .acc | .imp | .imm | .ind | .rel => 2
  | .zp => 5
  | .zpx | .zpy | .abs => 6
  | .abx | .aby => 7
  | .izx | .izy => 8

/-- The base cost of JMP: ABS 3, IND 5 (R310). -/
def jumpCost : Mode → Nat
  | .ind => 5
  | _ => 3

/-- The base cost of a row (R157, R160, R198). -/
def baseCycles (m : Mnemonic) (mode : Mode) : Nat :=
  match m with
  | .sta | .stx | .sty | .sax | .sha | .shx | .shy | .tas => storeCost mode
  | .asl | .lsr | .rol | .ror | .inc | .dec | .slo | .rla | .sre | .rra | .dcp | .isb => modifyCost mode
  | .jmp => jumpCost mode
  | .jsr | .rts | .rti => 6
  | .brk | .nmi | .irq => 7
  | .pha | .php => 3
  | .pla | .plp => 4
  | .jam => 1
  | .lda | .ldx | .ldy | .tax | .tay | .txa | .tya | .tsx | .txs | .adc | .sbc | .and | .ora | .eor | .bit | .cmp
  | .cpx | .cpy | .inx | .iny | .dex | .dey | .bpl | .bmi | .bvc | .bvs | .bcc | .bcs | .bne | .beq | .clc | .sec
  | .cli | .sei | .cld | .sed | .clv | .nop | .lax | .sbcU | .nopU | .anc | .alr | .arr | .axs | .las | .xaa
  | .lxa => readCost mode

/-- `pen`: the row is marked `+p`. Reading instructions in ABX, ABY and IZY modes (R156). -/
def hasPenalty (m : Mnemonic) (mode : Mode) : Bool :=
  match m with
  | .lda | .ldx | .ldy | .adc | .sbc | .and | .ora | .eor | .cmp | .lax | .las | .nopU =>
    mode == .abx || mode == .aby || mode == .izy
  | .sta | .stx | .sty | .tax | .tay | .txa | .tya | .tsx | .txs | .bit | .cpx | .cpy | .inc | .dec | .inx | .iny
  | .dex | .dey | .asl | .lsr | .rol | .ror | .pha | .php | .pla | .plp | .jmp | .jsr | .rts | .rti | .brk | .bpl
  | .bmi | .bvc | .bvs | .bcc | .bcs | .bne | .beq | .clc | .sec | .cli | .sei | .cld | .sed | .clv | .nop | .sax
  | .sbcU | .dcp | .isb | .slo | .rla | .sre | .rra | .anc | .alr | .arr | .axs | .xaa | .lxa | .sha | .shx | .shy
  | .tas | .jam | .nmi | .irq => false

end Sys2Proof.Machine
end

