-- ==== Sys2Proof/Machine/Operands.lean ====
section
/-! DEFINITION. The operand forms: where each addressing mode's operand lies (R143 to R155), its read and its write
(R162, R163), and the penalties (R156, R199, R200). -/

namespace Sys2Proof.Machine

/-- Where an operand lies: the accumulator, the operand byte itself, or an effective address with the base address it
was indexed from. -/
inductive Loc where
  | acc
  | imm (b : Byte)
  | mem (ea base : Addr)
deriving DecidableEq, Repr

/-- A zero-page address (R146). -/
def zeroPage (b : Byte) : Addr := b.setWidth 16

/-- The place of an operand, and the state after the pointer reads of IZX and IZY (R144 to R154). -/
def resolve (o : Operand) (s : State) : Loc × State :=
  match o with
  | .acc => (.acc, s)
  | .imm b => (.imm b, s)
  | .zp b => (.mem (zeroPage b) (zeroPage b), s)
  | .zpx b => (.mem (zeroPage (b + s.x)) (zeroPage (b + s.x)), s)
  | .zpy b => (.mem (zeroPage (b + s.y)) (zeroPage (b + s.y)), s)
  | .abs a => (.mem a a, s)
  | .abx a => (.mem (a + s.x.setWidth 16) a, s)
  | .aby a => (.mem (a + s.y.setWidth 16) a, s)
  | .izx b =>
    let r := read16Page (zeroPage (b + s.x)) s
    (.mem r.1 r.1, r.2)
  | .izy b =>
    let r := read16Page (zeroPage b) s
    (.mem (r.1 + s.y.setWidth 16) r.1, r.2)

/-- `crossed`: the high byte of the effective address differs from that of its base (R150, R151, R154). -/
def Loc.crossed : Loc → Bool
  | .acc | .imm _ => false
  | .mem ea base => hi base != hi ea

/-- `Operand()`: the value at a place, read once (R162). -/
def readLoc (loc : Loc) (s : State) : Byte × State :=
  match loc with
  | .acc => (s.a, s)
  | .imm b => (b, s)
  | .mem ea _ => memRead ea s

/-- `WriteBack(v)`: the value at a place, written once (R163). No instruction of the table writes to an immediate
operand; such a write does nothing (log entry 16). -/
def writeLoc (loc : Loc) (b : Byte) (s : State) : State :=
  match loc with
  | .acc => s.setA b
  | .imm _ => s
  | .mem ea _ => memWrite ea b s

/-- The page-cross penalty (R156, R199). -/
def pagePenalty (m : Mnemonic) (mode : Mode) (crossed : Bool) : Nat :=
  if hasPenalty m mode && crossed then 1 else 0

/-- The base cost of a row and its page-cross penalty (R198, R199). -/
def chargeRow (m : Mnemonic) (mode : Mode) (crossed : Bool) (s : State) : State :=
  s.charge (baseCycles m mode + pagePenalty m mode crossed)

/-- The base cost of a row with no effective address (R198). -/
def chargeBase (m : Mnemonic) (mode : Mode) (s : State) : State := s.charge (baseCycles m mode)

/-- The operand of a reading instruction, with its row charged: resolve, then `Operand()` (R162, R196). -/
def loadOperand (m : Mnemonic) (o : Operand) (s : State) : Byte × State :=
  let r := resolve o s
  let v := readLoc r.1 r.2
  (v.1, chargeRow m o.mode r.1.crossed v.2)

/-- A storing instruction: resolve, then one write with no read of the place (R85). -/
def storeOperand (m : Mnemonic) (o : Operand) (b : Byte) (s : State) : State :=
  let r := resolve o s
  chargeRow m o.mode r.1.crossed (writeLoc r.1 b r.2)

/-- A read-modify-write instruction: resolve, one read, one write of the new value (R85); the old value goes with the
state. -/
def modifyOperand (m : Mnemonic) (o : Operand) (f : Byte → Byte) (s : State) : Byte × State :=
  let r := resolve o s
  let v := readLoc r.1 r.2
  (v.1, chargeRow m o.mode r.1.crossed (writeLoc r.1 (f v.1) v.2))

/-- `H`, the high byte of the base address, plus one (R366, R369). -/
def highPlusOne (base : Addr) : Byte := hi base + 1

/-- The store of the unstable group: the value under H + 1, at an address whose high byte it replaces on a page cross
(R369 to R372). -/
def storeUnderHigh (m : Mnemonic) (o : Operand) (b : Byte) (s : State) : State :=
  let r := resolve o s
  match r.1 with
  | .acc | .imm _ => chargeRow m o.mode false r.2
  | .mem ea base =>
    let val := b &&& highPlusOne base
    let ea := if r.1.crossed then w16 val (lo ea) else ea
    chargeRow m o.mode r.1.crossed (memWrite ea val r.2)

/-- The target of a branch (R155). -/
def branchTarget (disp : Byte) (pc : Addr) : Addr := pc + disp.signExtend 16

/-- `Branch(cond)` with its penalties (R315, R200). -/
def branch (m : Mnemonic) (cond : Bool) (disp : Byte) (s : State) : State :=
  let target := branchTarget disp s.pc
  let s1 := chargeBase m .rel s
  if cond then (s1.charge (if hi s.pc != hi target then 2 else 1)).setPc target else s1

end Sys2Proof.Machine
end

