-- ==== Sys2Proof/Machine/Arith.lean ====
section
/-! DEFINITION. Arithmetic, logic, compare, increment and decrement (42_arith_logic.md). -/

namespace Sys2Proof.Machine

/-- `(r, c, v) <- AddC(A, m, c); A <- r` and the flags N, V, Z, C (R252). -/
def State.addToA (s : State) (m : Byte) (c : Bool) : State :=
  let r := addC s.a m c
  (s.setA r.1).setP (s.p.ofAdd r)

/-- `Compare(reg, Operand())` (R251). -/
def compareWith (m : Mnemonic) (reg : Byte) (o : Operand) (s : State) : State :=
  let r := loadOperand m o s
  r.2.setP (r.2.p.compare reg r.1)

/-- A memory byte replaced by f of it, N and Z from the new byte (R261, R262). -/
def modifyNZ (m : Mnemonic) (f : Byte → Byte) (o : Operand) (s : State) : State :=
  let r := modifyOperand m o f s
  r.2.setP (r.2.p.setNZ (f r.1))

/-- ADC; D has no effect (R252, R267). -/
def execAdc (o : Operand) (s : State) : Result :=
  let r := loadOperand .adc o s
  .next (r.2.addToA r.1 r.2.p.c)

/-- SBC: ADC of the operand's one's complement (R253). -/
def execSbc (o : Operand) (s : State) : Result :=
  let r := loadOperand .sbc o s
  .next (r.2.addToA (r.1 ^^^ 0xFF) r.2.p.c)

/-- AND (R254). -/
def execAnd (o : Operand) (s : State) : Result :=
  let r := loadOperand .and o s
  .next (r.2.loadA (r.2.a &&& r.1))

/-- ORA (R255). -/
def execOra (o : Operand) (s : State) : Result :=
  let r := loadOperand .ora o s
  .next (r.2.loadA (r.2.a ||| r.1))

/-- EOR (R256). -/
def execEor (o : Operand) (s : State) : Result :=
  let r := loadOperand .eor o s
  .next (r.2.loadA (r.2.a ^^^ r.1))

/-- The flags of BIT: Z from A & m, N and V bits 7 and 6 of m (R257). -/
def Flags.bitTest (f : Flags) (a m : Byte) : Flags :=
  { f with z := a &&& m == 0, n := m.getLsbD 7, v := m.getLsbD 6 }

/-- BIT (R257). -/
def execBit (o : Operand) (s : State) : Result :=
  let r := loadOperand .bit o s
  .next (r.2.setP (r.2.p.bitTest r.2.a r.1))

/-- CMP (R258). -/
def execCmp (o : Operand) (s : State) : Result :=
  .next (compareWith .cmp s.a o s)

/-- CPX (R259). -/
def execCpx (o : Operand) (s : State) : Result :=
  .next (compareWith .cpx s.x o s)

/-- CPY (R260). -/
def execCpy (o : Operand) (s : State) : Result :=
  .next (compareWith .cpy s.y o s)

/-- INC (R261). -/
def execInc (o : Operand) (s : State) : Result :=
  .next (modifyNZ .inc (· + 1) o s)

/-- DEC (R262). -/
def execDec (o : Operand) (s : State) : Result :=
  .next (modifyNZ .dec (· - 1) o s)

/-- INX (R263). -/
def execInx (s : State) : Result :=
  .next (chargeBase .inx .imp (s.loadX (s.x + 1)))

/-- INY (R264). -/
def execIny (s : State) : Result :=
  .next (chargeBase .iny .imp (s.loadY (s.y + 1)))

/-- DEX (R265). -/
def execDex (s : State) : Result :=
  .next (chargeBase .dex .imp (s.loadX (s.x - 1)))

/-- DEY (R266). -/
def execDey (s : State) : Result :=
  .next (chargeBase .dey .imp (s.loadY (s.y - 1)))

end Sys2Proof.Machine
end

