-- ==== Sys2Proof/Machine/Control.lean ====
section
/-! DEFINITION. Jumps, subroutines, returns, BRK and branches (45_control_flow.md). -/

namespace Sys2Proof.Machine

/-- The target of JMP, and the state after the pointer read of the IND form (R149, R152). -/
def jumpTarget (t : JumpTarget) (s : State) : Addr × State :=
  match t with
  | .abs a => (a, s)
  | .ind ptr => read16Page ptr s

/-- JMP (R310). -/
def execJmp (t : JumpTarget) (s : State) : Result :=
  let r := jumpTarget t s
  .next (chargeBase .jmp t.mode (r.2.setPc r.1))

/-- JSR: the pushed address is that of its own last byte (R311). -/
def execJsr (target : Addr) (s : State) : Result :=
  .next (chargeBase .jsr .abs ((push16 (s.pc - 1) s).setPc target))

/-- RTS (R312). -/
def execRts (s : State) : Result :=
  let r := pull16 s
  .next (chargeBase .rts .imp (r.2.setPc (r.1 + 1)))

/-- RTI (R313). -/
def execRti (s : State) : Result :=
  .next (chargeBase .rti .imp (returnFromInterrupt s))

/-- BRK: the software interrupt. pc after the fetch is the BRK address + 1, so the pushed address is + 2 (R314, R408). -/
def execBrk (s : State) : Result :=
  .next (chargeBase .brk .imp (enterInterrupt irqVector (s.pc + 1) true s))

/-- BPL (R316). -/
def execBpl (disp : Byte) (s : State) : Result :=
  .next (branch .bpl (!s.p.n) disp s)

/-- BMI (R317). -/
def execBmi (disp : Byte) (s : State) : Result :=
  .next (branch .bmi s.p.n disp s)

/-- BVC (R318). -/
def execBvc (disp : Byte) (s : State) : Result :=
  .next (branch .bvc (!s.p.v) disp s)

/-- BVS (R319). -/
def execBvs (disp : Byte) (s : State) : Result :=
  .next (branch .bvs s.p.v disp s)

/-- BCC (R320). -/
def execBcc (disp : Byte) (s : State) : Result :=
  .next (branch .bcc (!s.p.c) disp s)

/-- BCS (R321). -/
def execBcs (disp : Byte) (s : State) : Result :=
  .next (branch .bcs s.p.c disp s)

/-- BNE (R322). -/
def execBne (disp : Byte) (s : State) : Result :=
  .next (branch .bne (!s.p.z) disp s)

/-- BEQ (R323). -/
def execBeq (disp : Byte) (s : State) : Result :=
  .next (branch .beq s.p.z disp s)

end Sys2Proof.Machine
end

