-- ==== Sys2Proof/Machine/FlagOps.lean ====
section
/-! DEFINITION. Flag instructions and NOP (46_flags_misc.md). -/

namespace Sys2Proof.Machine

/-- CLC (R340). -/
def execClc (s : State) : Result :=
  .next (chargeBase .clc .imp (s.setP { s.p with c := false }))

/-- SEC (R341). -/
def execSec (s : State) : Result :=
  .next (chargeBase .sec .imp (s.setP { s.p with c := true }))

/-- CLI (R342). -/
def execCli (s : State) : Result :=
  .next (chargeBase .cli .imp (s.setP { s.p with i := false }))

/-- SEI (R343). -/
def execSei (s : State) : Result :=
  .next (chargeBase .sei .imp (s.setP { s.p with i := true }))

/-- CLD (R344). -/
def execCld (s : State) : Result :=
  .next (chargeBase .cld .imp (s.setP { s.p with d := false }))

/-- SED (R345). -/
def execSed (s : State) : Result :=
  .next (chargeBase .sed .imp (s.setP { s.p with d := true }))

/-- CLV (R346). -/
def execClv (s : State) : Result :=
  .next (chargeBase .clv .imp (s.setP { s.p with v := false }))

/-- NOP (R347). -/
def execNop (s : State) : Result :=
  .next (chargeBase .nop .imp s)

end Sys2Proof.Machine
end

