-- ==== Sys2Proof/Machine/Interrupts.lean ====
section
/-! DEFINITION. The two hardware interrupt entries, the synthetic rows of the table (60_exceptions.md). -/

namespace Sys2Proof.Machine

/-- NMI: the line is cleared and the entry runs through 0xFFFA (R406). -/
def execNmi (s : State) : Result :=
  .next (chargeBase .nmi .imp (enterInterrupt nmiVector s.pc false (s.setNmi false)))

/-- IRQ: the line is cleared and the entry runs through 0xFFFE (R407). -/
def execIrq (s : State) : Result :=
  .next (chargeBase .irq .imp (enterInterrupt irqVector s.pc false (s.setIrq false)))

end Sys2Proof.Machine
end

