-- ==== Sys2Proof/Machine/Loads.lean ====
section
/-! DEFINITION. Loads, stores and register transfers (41_load_store_transfer.md). -/

namespace Sys2Proof.Machine

/-- LDA (R220). -/
def execLda (o : Operand) (s : State) : Result :=
  let r := loadOperand .lda o s
  .next (r.2.loadA r.1)

/-- LDX (R221). -/
def execLdx (o : Operand) (s : State) : Result :=
  let r := loadOperand .ldx o s
  .next (r.2.loadX r.1)

/-- LDY (R222). -/
def execLdy (o : Operand) (s : State) : Result :=
  let r := loadOperand .ldy o s
  .next (r.2.loadY r.1)

/-- STA (R223). -/
def execSta (o : Operand) (s : State) : Result :=
  .next (storeOperand .sta o s.a s)

/-- STX (R224). -/
def execStx (o : Operand) (s : State) : Result :=
  .next (storeOperand .stx o s.x s)

/-- STY (R225). -/
def execSty (o : Operand) (s : State) : Result :=
  .next (storeOperand .sty o s.y s)

/-- TAX (R226). -/
def execTax (s : State) : Result :=
  .next (chargeBase .tax .imp (s.loadX s.a))

/-- TAY (R227). -/
def execTay (s : State) : Result :=
  .next (chargeBase .tay .imp (s.loadY s.a))

/-- TXA (R228). -/
def execTxa (s : State) : Result :=
  .next (chargeBase .txa .imp (s.loadA s.x))

/-- TYA (R229). -/
def execTya (s : State) : Result :=
  .next (chargeBase .tya .imp (s.loadA s.y))

/-- TSX (R230). -/
def execTsx (s : State) : Result :=
  .next (chargeBase .tsx .imp (s.loadX s.sp))

/-- TXS: the one transfer that writes no flag (R231). -/
def execTxs (s : State) : Result :=
  .next (chargeBase .txs .imp (s.setSp s.x))

end Sys2Proof.Machine
end

