-- ==== Sys2Proof/Machine/Shifts.lean ====
section
/-! DEFINITION. Shifts and rotates (43_shift_rotate.md). -/

namespace Sys2Proof.Machine

/-- An operand replaced by its shift, C the bit shifted out, N and Z from the result (R291 to R294). -/
def shiftOperand (m : Mnemonic) (f : Byte → Byte × Bool) (o : Operand) (s : State) : State :=
  let r := modifyOperand m o (fun v => (f v).1) s
  r.2.setP (r.2.p.ofShift (f r.1))

/-- ASL (R291). -/
def execAsl (o : Operand) (s : State) : Result :=
  .next (shiftOperand .asl shl o s)

/-- LSR (R292). -/
def execLsr (o : Operand) (s : State) : Result :=
  .next (shiftOperand .lsr shr o s)

/-- ROL (R293). -/
def execRol (o : Operand) (s : State) : Result :=
  .next (shiftOperand .rol (rol · s.p.c) o s)

/-- ROR (R294). -/
def execRor (o : Operand) (s : State) : Result :=
  .next (shiftOperand .ror (ror · s.p.c) o s)

end Sys2Proof.Machine
end

