-- ==== Sys2Proof/Machine/Stack.lean ====
section
/-! DEFINITION. Stack instructions (44_stack.md). -/

namespace Sys2Proof.Machine

/-- PHA (R300). -/
def execPha (s : State) : Result :=
  .next (chargeBase .pha .imp (push s.a s))

/-- PHP: the break bit is set in the pushed byte (R301). -/
def execPhp (s : State) : Result :=
  .next (chargeBase .php .imp (push (s.p.pack true) s))

/-- PLA (R302). -/
def execPla (s : State) : Result :=
  let r := pull s
  .next (chargeBase .pla .imp (r.2.loadA r.1))

/-- PLP (R303). -/
def execPlp (s : State) : Result :=
  let r := pull s
  .next (chargeBase .plp .imp (r.2.setP (Flags.unpack r.1)))

end Sys2Proof.Machine
end

