-- ==== Sys2Proof/Machine/Undocumented.lean ====
section
/-! DEFINITION. The undocumented instructions that are not unstable (47_undocumented.md sections 1 and 2). -/

namespace Sys2Proof.Machine

/-- A memory byte replaced by its shift, C the bit shifted out; the new byte goes with the state (R356 to R359). -/
def shiftMemory (m : Mnemonic) (f : Byte → Byte × Bool) (o : Operand) (s : State) : Byte × State :=
  let r := modifyOperand m o (fun v => (f v).1) s
  ((f r.1).1, r.2.setP { r.2.p with c := (f r.1).2 })

/-- The same byte into A and X, with its flags (R351, R368). -/
def State.loadAX (s : State) (v : Byte) : State := ((s.setA v).setX v).setP (s.p.setNZ v)

/-- *LAX (R351). -/
def execLax (o : Operand) (s : State) : Result :=
  let r := loadOperand .lax o s
  .next (r.2.loadAX r.1)

/-- *SAX (R352). -/
def execSax (o : Operand) (s : State) : Result :=
  .next (storeOperand .sax o (s.a &&& s.x) s)

/-- *SBC: SBC of an immediate byte (R353). -/
def execSbcU (imm : Byte) (s : State) : Result :=
  let r := loadOperand .sbcU (.imm imm) s
  .next (r.2.addToA (r.1 ^^^ 0xFF) r.2.p.c)

/-- *DCP: decrement memory, then compare with A (R354). -/
def execDcp (o : Operand) (s : State) : Result :=
  let r := modifyOperand .dcp o (· - 1) s
  .next (r.2.setP (r.2.p.compare r.2.a (r.1 - 1)))

/-- *ISB: increment memory, then subtract from A (R355). -/
def execIsb (o : Operand) (s : State) : Result :=
  let r := modifyOperand .isb o (· + 1) s
  .next (r.2.addToA ((r.1 + 1) ^^^ 0xFF) r.2.p.c)

/-- *SLO: shift memory left, then OR into A (R356). -/
def execSlo (o : Operand) (s : State) : Result :=
  let r := shiftMemory .slo shl o s
  .next (r.2.loadA (r.2.a ||| r.1))

/-- *RLA: rotate memory left, then AND into A (R357). -/
def execRla (o : Operand) (s : State) : Result :=
  let r := shiftMemory .rla (rol · s.p.c) o s
  .next (r.2.loadA (r.2.a &&& r.1))

/-- *SRE: shift memory right, then EOR into A (R358). -/
def execSre (o : Operand) (s : State) : Result :=
  let r := shiftMemory .sre shr o s
  .next (r.2.loadA (r.2.a ^^^ r.1))

/-- *RRA: rotate memory right, then add to A; the carry out of the rotate is the carry in of the add (R359). -/
def execRra (o : Operand) (s : State) : Result :=
  let r := shiftMemory .rra (ror · s.p.c) o s
  .next (r.2.addToA r.1 r.2.p.c)

/-- *NOP: nothing, or a byte read and discarded with the side effects of its read (R360). -/
def execNopU (o : Option Operand) (s : State) : Result :=
  match o with
  | none => .next (chargeBase .nopU .imp s)
  | some o => .next (loadOperand .nopU o s).2

/-- ANC: AND, then C from bit 7 (R361). -/
def execAnc (imm : Byte) (s : State) : Result :=
  let r := loadOperand .anc (.imm imm) s
  let t := r.2.loadA (r.2.a &&& r.1)
  .next (t.setP { t.p with c := t.a.getLsbD 7 })

/-- ALR: AND, then LSR A (R362). -/
def execAlr (imm : Byte) (s : State) : Result :=
  let r := loadOperand .alr (.imm imm) s
  let sh := shr (r.2.a &&& r.1)
  .next ((r.2.setA sh.1).setP (r.2.p.ofShift sh))

/-- ARR: AND, then ROR A, with C bit 6 and V bit 6 XOR bit 5 of the result (R363). -/
def execArr (imm : Byte) (s : State) : Result :=
  let r := loadOperand .arr (.imm imm) s
  let t := r.2.loadA (ror (r.2.a &&& r.1) r.2.p.c).1
  .next (t.setP { t.p with c := t.a.getLsbD 6, v := t.a.getLsbD 6 != t.a.getLsbD 5 })

/-- AXS: X from (A AND X) minus the byte, flags as a compare (R364). -/
def execAxs (imm : Byte) (s : State) : Result :=
  let r := loadOperand .axs (.imm imm) s
  let t := r.2.a &&& r.2.x
  .next ((r.2.setX (t - r.1)).setP (r.2.p.compare t r.1))

/-- LAS: A, X and SP from memory AND SP (R365). -/
def execLas (base : Addr) (s : State) : Result :=
  let r := loadOperand .las (.aby base) s
  let v := r.1 &&& r.2.sp
  .next ((r.2.loadAX v).setSp v)

end Sys2Proof.Machine
end

