-- ==== Sys2Proof/Machine/Unstable.lean ====
section
/-! DEFINITION. The unstable instructions and JAM (47_undocumented.md sections 3 and 4). -/

namespace Sys2Proof.Machine

/-- An unstable instruction has its NMOS effect under UNSTABLE_MODE = nmos and no meaning under refuse (R366). -/
def whenNmos (s t : State) : Result :=
  match s.params.unstableMode with
  | .nmos => .next t
  | .refuse => .refused .unstableOpcode

/-- XAA (R367). -/
def execXaa (imm : Byte) (s : State) : Result :=
  let r := loadOperand .xaa (.imm imm) s
  whenNmos s (r.2.loadA ((r.2.a ||| Config.unstableMagic) &&& r.2.x &&& r.1))

/-- LXA (R368). -/
def execLxa (imm : Byte) (s : State) : Result :=
  let r := loadOperand .lxa (.imm imm) s
  whenNmos s (r.2.loadAX ((r.2.a ||| Config.unstableMagic) &&& r.1))

/-- SHA (R369). -/
def execSha (o : Operand) (s : State) : Result :=
  whenNmos s (storeUnderHigh .sha o (s.a &&& s.x) s)

/-- SHX (R370). -/
def execShx (base : Addr) (s : State) : Result :=
  whenNmos s (storeUnderHigh .shx (.aby base) s.x s)

/-- SHY (R371). -/
def execShy (base : Addr) (s : State) : Result :=
  whenNmos s (storeUnderHigh .shy (.abx base) s.y s)

/-- TAS: SP from A AND X, then the store of SP under H + 1 (R372). -/
def execTas (base : Addr) (s : State) : Result :=
  whenNmos s (storeUnderHigh .tas (.aby base) (s.a &&& s.x) (s.setSp (s.a &&& s.x)))

/-- JAM: the CPU halts (R373). -/
def execJam (s : State) : Result :=
  .next (chargeBase .jam .imp (halt s))

end Sys2Proof.Machine
end

