-- ==== Sys2Proof/Machine/Render.lean ====
section
/-! DEFINITION. Rendering of one line (R425 to R433) and the frame buffer (R456, R457). -/

namespace Sys2Proof.Machine

/-- `rendering`: background or sprites shown (R423). -/
def rendering (ppu : Ppu) : Bool := ppu.mask.getLsbD 3 || ppu.mask.getLsbD 4

/-- `IncCoarseX()` (R427). -/
def incCoarseX (v : VramReg) : VramReg :=
  if v &&& 0x001F = 31 then (v &&& ~~~(0x001F : VramReg)) ^^^ 0x0400 else v + 1

/-- The coarse Y step of `IncY()`, with fine Y already cleared (R427). -/
def incCoarseY (v : VramReg) : VramReg :=
  let y := (v >>> 5) &&& 0x1F
  if y = 29 then (v ^^^ 0x0800) &&& ~~~(0x03E0 : VramReg)
  else if y = 31 then v &&& ~~~(0x03E0 : VramReg)
  else (v &&& ~~~(0x03E0 : VramReg)) ||| ((y + 1) <<< 5)

/-- `IncY()` (R427). -/
def incY (v : VramReg) : VramReg :=
  if v &&& 0x7000 = 0x7000 then incCoarseY (v &&& ~~~(0x7000 : VramReg)) else v + 0x1000

/-- `CopyX()` (R427). -/
def copyX (v t : VramReg) : VramReg := (v &&& ~~~(0x041F : VramReg)) ||| (t &&& 0x041F)

/-- `TilePixel(lo, hi, b)`: b = 0 is the leftmost pixel (R454). -/
def tilePixel (l h : Byte) (b : Nat) : BitVec 2 :=
  BitVec.ofBool (h.getLsbD (7 - b)) ++ BitVec.ofBool (l.getLsbD (7 - b))

/-- The address of the tile index (R426, R455). -/
def tileAddr (v : VramReg) : PpuAddr := 0x2000 ||| (v &&& 0x0FFF).setWidth 14

/-- The address of the attribute byte (R426, R455). -/
def attributeAddr (v : VramReg) : PpuAddr :=
  (0x23C0 ||| (v &&& 0x0C00) ||| ((v >>> 4) &&& 0x38) ||| ((v >>> 2) &&& 0x07)).setWidth 14

/-- The shift of a tile's palette number in its attribute byte (R426, R455). -/
def attributeShift (v : VramReg) : Nat := (((v >>> 4) &&& 0x04) ||| (v &&& 0x02)).toNat

/-- The address of the low plane of a background tile's row (R426). -/
def backgroundPattern (ppu : Ppu) (tile : Byte) : PpuAddr :=
  (if ppu.ctrl.getLsbD 4 then 0x1000 else 0) + tile.setWidth 14 * 16 + ((ppu.v >>> 12) &&& 7).setWidth 14

/-- A background pixel: its two bits and its palette number. -/
abbrev BgPixel := BitVec 2 × BitVec 2

/-- The eight pixels of the tile at v (R426). -/
def backgroundTile (cart : Cartridge) (ppu : Ppu) : List BgPixel :=
  let tile := ppuRead cart ppu (tileAddr ppu.v)
  let pal := (ppuRead cart ppu (attributeAddr ppu.v) >>> attributeShift ppu.v).setWidth 2
  let a := backgroundPattern ppu tile
  let l := ppuRead cart ppu a
  let h := ppuRead cart ppu (a + 8)
  (List.range 8).map fun b => (tilePixel l h b, pal)

/-- The pixels of n tiles from v on, coarse X stepped after each (R426). -/
def backgroundTiles (cart : Cartridge) : Nat → Ppu → List BgPixel
  | 0, _ => []
  | n + 1, ppu => backgroundTile cart ppu ++ backgroundTiles cart n { ppu with v := incCoarseX ppu.v }

/-- v after n tiles. -/
def incCoarseXs : Nat → VramReg → VramReg
  | 0, v => v
  | n + 1, v => incCoarseXs n (incCoarseX v)

/-- The 256 background pixels of a line: none shown when the background is hidden; otherwise 33 tiles less the fine X
offset, the left eight pixels cleared under the left-column mask (R426). -/
def backgroundRow (cart : Cartridge) (ppu : Ppu) : List BgPixel :=
  if ppu.mask.getLsbD 3 then
    let row := ((backgroundTiles cart 33 ppu).drop ppu.x.toNat).take 256
    if ppu.mask.getLsbD 1 then row else (row.take 8).map (fun p => (0, p.2)) ++ row.drop 8
  else List.replicate 256 (0, 0)

/-- v after `BackgroundRow()`: stepped 33 tiles, or unchanged when the background is hidden (R426). -/
def backgroundV (ppu : Ppu) : VramReg :=
  if ppu.mask.getLsbD 3 then incCoarseXs 33 ppu.v else ppu.v

/-- A byte of OAM entry n (R453). -/
def oamByte (ppu : Ppu) (n field : Nat) : Byte := ppu.oam.read (4 * n + field)

/-- The sprite height h: 16 when bit 5 of PPUCTRL is set, else 8 (R428). -/
def spriteHeight (ppu : Ppu) : Nat := if ppu.ctrl.getLsbD 5 then 16 else 8

/-- The row of sprite n that line sl shows, if any (R428). -/
def spriteRowOn (ppu : Ppu) (sl n : Nat) : Option Nat :=
  let top := (oamByte ppu n 0).toNat + 1
  if top ≤ sl ∧ sl - top < spriteHeight ppu then some (sl - top) else none

/-- The first eight sprites on a line, in OAM order, with the row shown (R428). -/
def spritesOn (ppu : Ppu) (sl : Nat) : List (Nat × Nat) :=
  ((List.range 64).filterMap fun n => (spriteRowOn ppu sl n).map fun row => (n, row)).take 8

/-- The address of the low plane of a sprite's row (R429). -/
def spritePatternAddr (ppu : Ppu) (tile attr : Byte) (row : Nat) : PpuAddr :=
  let r := if attr.getLsbD 7 then spriteHeight ppu - 1 - row else row
  if ppu.ctrl.getLsbD 5 then
    BitVec.ofNat 14 (tile.toNat % 2 * 0x1000 + (tile.toNat / 2 * 2 + r / 8) * 16 + r % 8)
  else
    BitVec.ofNat 14 ((if ppu.ctrl.getLsbD 3 then 0x1000 else 0) + tile.toNat * 16 + r)

/-- A sprite on the line: its pattern row, attributes, left column, and whether it is OAM entry 0. -/
structure LineSprite where
  low    : Byte
  high   : Byte
  attr   : Byte
  left   : Byte
  isZero : Bool
deriving DecidableEq, Repr

/-- Sprite n with the pattern bytes of its row (R428, R429). -/
def lineSprite (cart : Cartridge) (ppu : Ppu) (n row : Nat) : LineSprite :=
  let attr := oamByte ppu n 2
  let a := spritePatternAddr ppu (oamByte ppu n 1) attr row
  { low := ppuRead cart ppu a, high := ppuRead cart ppu (a + 8), attr := attr, left := oamByte ppu n 3,
    isZero := n == 0 }

/-- An opaque sprite pixel: its bits, its palette, whether it is behind the background, whether it is of entry 0. -/
structure SpritePixel where
  bits   : BitVec 2
  pal    : BitVec 2
  behind : Bool
  isZero : Bool
deriving DecidableEq, Repr

/-- The opaque pixel a sprite puts at column sx, if any (R428). -/
def LineSprite.pixelAt (sp : LineSprite) (ppu : Ppu) (sx : Nat) : Option SpritePixel :=
  let b := sx - sp.left.toNat
  let bits := tilePixel sp.low sp.high (if sp.attr.getLsbD 6 then 7 - b else b)
  if sp.left.toNat ≤ sx ∧ b < 8 ∧ bits ≠ 0 ∧ ¬ (ppu.mask.getLsbD 2 = false ∧ sx < 8) then
    some { bits := bits, pal := sp.attr.setWidth 2, behind := sp.attr.getLsbD 5, isZero := sp.isZero }
  else none

/-- The sprites of a line with their patterns: none when sprites are hidden (R428). -/
def lineSprites (cart : Cartridge) (ppu : Ppu) (sl : Nat) : List LineSprite :=
  if ppu.mask.getLsbD 4 then (spritesOn ppu sl).map fun e => lineSprite cart ppu e.1 e.2 else []

/-- `SpriteRow(sl)`: at each column the pixel of the first sprite that has one there (R428). -/
def spriteRow (cart : Cartridge) (ppu : Ppu) (sl : Nat) : List (Option SpritePixel) :=
  let sprites := lineSprites cart ppu sl
  (List.range 256).map fun sx => sprites.findSome? fun sp => sp.pixelAt ppu sx

/-- `Composite`: the palette-table index of a pixel (R430). -/
def composite (bg : BgPixel) (sp : Option SpritePixel) : BitVec 5 :=
  let back : BitVec 5 := if bg.1 = 0 then 0 else 4 * bg.2.setWidth 5 + bg.1.setWidth 5
  match sp with
  | none => back
  | some s => if bg.1 ≠ 0 ∧ s.behind then back else 0x10 + 4 * s.pal.setWidth 5 + s.bits.setWidth 5

/-- Whether a pixel sets the sprite-zero hit (R431). -/
def spriteZeroAt (needsBg : Bool) (sx : Nat) (bg : BgPixel) (sp : Option SpritePixel) : Bool :=
  match sp with
  | none => false
  | some s => s.isZero && (!needsBg || (bg.1 != 0 && sx != 255))

/-- The colour of a palette-table index, through the alias (R432, R98). -/
def colourOf (cart : Cartridge) (ppu : Ppu) (i : BitVec 5) : Colour :=
  (ppuRead cart ppu (0x3F00 + i.setWidth 14)).setWidth 6

/-- The frame-buffer row of a visible line, if it is shown: cropped by 8 lines at each end when FB_HEIGHT = 224
(R456). -/
def frameRow (h : FbHeight) (sl : Nat) : Option Nat :=
  match h with
  | .h240 => if sl < 240 then some sl else none
  | .h224 => if 8 ≤ sl ∧ sl < 232 then some (sl - 8) else none

/-- A line of colours written to the frame buffer (R432, R456). -/
def putLine (h : FbHeight) (sl : Nat) (line : List Colour) (ppu : Ppu) : Ppu :=
  match frameRow h sl with
  | some row => { ppu with fb := keyedSet row line ppu.fb }
  | none => ppu

/-- `FillBackdrop(sl)` (R433). -/
def fillBackdrop (params : Params) (cart : Cartridge) (sl : Nat) (ppu : Ppu) : Ppu :=
  putLine params.fbHeight sl (List.replicate 256 (colourOf cart ppu 0)) ppu

/-- The columns of a line with their background and sprite pixels. -/
def lineColumns (cart : Cartridge) (ppu : Ppu) (sl : Nat) : List (Nat × BgPixel × Option SpritePixel) :=
  (List.range 256).zip ((backgroundRow cart ppu).zip (spriteRow cart ppu sl))

/-- A line of pixels with rendering on: composited, resolved and stored, the sprite-zero hit collected, then `IncY`
and `CopyX` (R425). -/
def drawLine (params : Params) (cart : Cartridge) (sl : Nat) (ppu : Ppu) : Ppu :=
  let columns := lineColumns cart ppu sl
  let line := columns.map fun e => colourOf cart ppu (composite e.2.1 e.2.2)
  let hit := columns.any fun e => spriteZeroAt params.s0NeedsBg e.1 e.2.1 e.2.2
  putLine params.fbHeight sl line
    { ppu with s0hit := ppu.s0hit || hit, v := copyX (incY (backgroundV ppu)) ppu.t }

/-- `RenderLine(sl)` (R425). -/
def renderLine (params : Params) (cart : Cartridge) (sl : Nat) (ppu : Ppu) : Ppu :=
  if rendering ppu then drawLine params cart sl ppu else fillBackdrop params cart sl ppu

/-- The colour of a frame-buffer pixel; none if no line has been written there since power-on. -/
def framePixel (ppu : Ppu) (row sx : Nat) : Option Colour :=
  (keyedGet row ppu.fb).bind fun line => (line.drop sx).head?

/-- The frame buffer as the flat RGB byte array of R456, resolved through NES_PALETTE (R432, R457); a pixel not yet
written has its power-on bytes 0 (R500). -/
def frameByte (ppu : Ppu) (k : Nat) : Byte :=
  match framePixel ppu (k / 3 / 256) (k / 3 % 256) with
  | none => 0
  | some c =>
    match k % 3 with
    | 0 => (Config.nesPalette c).1
    | 1 => (Config.nesPalette c).2.1
    | _ => (Config.nesPalette c).2.2

end Sys2Proof.Machine
end

