-- ==== Sys2Proof/Machine/PpuClock.lean ====
section
/-! DEFINITION. The PPU's dots: the events of a frame, one tick, and the catch-up of n ticks (R420 to R437). -/

namespace Sys2Proof.Machine

/-- Dots in a scanline (R6, R421). -/
def dotsPerLine : Nat := 341

/-- Scanlines in a frame (R6, R421). -/
def linesPerFrame : Nat := 262

/-- Vblank entry at (241, 1): vblank set, the sprite-zero hit cleared, the NMI line raised if PPUCTRL bit 7 is set
(R434). The line is sticky (R402). -/
def vblankEntry (s : State) : State :=
  (s.setPpu { s.ppu with vblank := true, s0hit := false }).setNmi (s.nmiPending || s.ppu.ctrl.getLsbD 7)

/-- The pre-render line's dot 1: vblank, sprite-zero hit and overflow cleared (R436, D25). -/
def preRenderClear (s : State) : State :=
  s.setPpu { s.ppu with vblank := false, s0hit := false, overflow := false }

/-- `PreRenderEnd()`: v reloaded from t if rendering, and the frame marked ready (R436; log entry 14). -/
def preRenderEnd (s : State) : State :=
  s.setPpu { s.ppu with v := if rendering s.ppu then s.ppu.t else s.ppu.v, frameReady := true }

/-- `DotEvent(scanline, dot)` (R424). -/
def dotEvent (s : State) : State :=
  if s.ppu.scanline < 240 ∧ s.ppu.dot = s.params.renderDot.val then
    s.setPpu (renderLine s.params s.cart s.ppu.scanline s.ppu)
  else if s.ppu.scanline = 241 ∧ s.ppu.dot = 1 then vblankEntry s
  else if s.ppu.scanline = 261 ∧ s.ppu.dot = 1 then preRenderClear s
  else s

/-- The end of a line: dot 0 of the next, after line 261 of line 0 (R422). -/
def nextLine (s : State) : State :=
  if s.ppu.scanline = linesPerFrame - 1 then
    let s := preRenderEnd s
    s.setPpu { s.ppu with dot := 0, scanline := 0 }
  else s.setPpu { s.ppu with dot := 0, scanline := s.ppu.scanline + 1 }

/-- The advance to the next dot (R422). -/
def nextDot (s : State) : State :=
  if s.ppu.dot + 1 = dotsPerLine then nextLine s else s.setPpu { s.ppu with dot := s.ppu.dot + 1 }

/-- `PpuTick()` (R422). -/
def ppuTick (s : State) : State := nextDot (dotEvent s)

/-- n ticks. -/
def ppuTicks : Nat → State → State
  | 0, s => s
  | n + 1, s => ppuTicks n (ppuTick s)

end Sys2Proof.Machine
end

