-- ==== Sys2Proof/Machine/Cycle.lean ====
section
/-! DEFINITION. The pieces of one step: the choice among halted, NMI, IRQ and instruction (R191 to R193), the fetch of
a whole instruction (R194 to R196), and the end of a step (R190, R202). -/

namespace Sys2Proof.Machine

/-- The operand bytes of a mode fetched in order, low byte first; a byte the mode does not have is 0 (R140). -/
def fetchOperands (n : Nat) (s : State) : (Byte × Byte) × State :=
  match n with
  | 0 => ((0, 0), s)
  | 1 =>
    let l := fetchByte s
    ((l.1, 0), l.2)
  | _ =>
    let l := fetchByte s
    let h := fetchByte l.2
    ((l.1, h.1), h.2)

/-- The instruction at pc, fetched through the bus, and the state after the fetches (R106, R194, R195). The mode of the
opcode byte tells how many operand bytes follow (R161). -/
def fetchInstr (s : State) : Instr × State :=
  let op := fetchByte s
  let args := fetchOperands (descriptor op.1).mode.operandBytes op.2
  (instrOf op.1 args.1.1 args.1.2, args.2)

/-- What one CPU step does with `cycles` at 0 (R191): nothing while halted but one cycle (D41), else an NMI entry, else
an unmasked IRQ entry, else the instruction at pc. -/
def cpuStep (s : State) : Result :=
  if s.halted then .next (s.charge 1)
  else if s.nmiPending then exec .nmi s
  else if s.irqPending && !s.p.i then exec .irq s
  else exec (fetchInstr s).1 (fetchInstr s).2

/-- The PPU catch-up: three dots per cycle (R190, R421). -/
def catchUp (s : State) : State := ppuTicks (3 * s.cycles) s

/-- The end of a step: the total counter (R202), then the PPU catch-up (R190). -/
def endStep (s : State) : State := catchUp (s.setTotalCycles (s.totalCycles + s.cycles))

/-- The state of an outcome mapped, a stop kept. -/
def Result.map (f : State → State) : Result → Result
  | .next s => .next (f s)
  | .fault r => .fault r
  | .refused r => .refused r

/-- An answer that reads the CPU registers: refused before the first `reset()`, when none of them has a value (R30 to R32,
R500), and between `reset()` and `start()`, when pc has none (R34). Log entry 7. -/
def whenStarted {α : Type} (s : State) (r : Host.Outcome α Fault Refusal) : Host.Outcome α Fault Refusal :=
  match s.phase with
  | .poweredOn => .refused .beforeReset
  | .afterReset => .refused .beforeStart
  | .running => r

end Sys2Proof.Machine
end

