-- ==== Sys2Proof/Machine/Step.lean ====
section
/-! DEFINITION. One step of the machine, and a program word placed where the next step runs it. -/

namespace Sys2Proof.Machine

/-- `SystemStep()` of a started session (R190, R503): one whole CPU step, then the PPU catch-up. -/
def step (s : State) : Host.Outcome State Fault Refusal :=
  whenStarted s (Result.map endStep (cpuStep (s.setCycles 0)))

/-- The state whose next step runs the instruction of a table word: its bytes placed where the step fetches, or, for
the two descriptor indices no byte selects, the line that selects them set (R160). Log entries 2 and 5. -/
def State.withFetchWord (s : State) (nbits w : Nat) : State :=
  match (if 8 < nbits then syntheticEntry w else none) with
  | some i => selectSynthetic s i
  | none => placeProgram (tableBytes nbits w) s

end Sys2Proof.Machine
end

