-- ==== Sys2Proof/Machine/Session.lean ====
section
/-! DEFINITION. A session as the host runs it: the cartridge image (R87 to R93), power-on (R500), `reset()` (R501),
`start()` (R502), the boot sequence (R503), and what the host may do between steps (R403, R437, R473, R505). -/

namespace Sys2Proof.Machine

/-- A header byte (R87). -/
def headerByte (image : List Byte) (k : Nat) : Byte := (image.drop k).headD 0

/-- The magic bytes 0x4E 0x45 0x53 0x1A (R87). -/
def magicBytes : List Byte := [0x4E, 0x45, 0x53, 0x1A]

/-- Mirroring from byte 6: four-screen overrides bit 0 (R88). -/
def headerMirroring (h6 : Byte) : Mirroring :=
  if h6.getLsbD 3 then .fourScreen else if h6.getLsbD 0 then .vertical else .horizontal

/-- The mapper number from bytes 6 and 7 (R88). -/
def headerMapper (h6 h7 : Byte) : Nat := ((h7 &&& 0xF0) ||| (h6 >>> 4)).toNat

/-- Bytes of header and trainer before the program ROM (R87, R88); the trainer is not mapped anywhere (R93). -/
def bodyStart (h6 : Byte) : Nat := 16 + (if h6.getLsbD 2 then 512 else 0)

/-- The cartridge of an accepted header (R88, R92). -/
def imageCartridge (image : List Byte) : Cartridge :=
  let prgPages := (headerByte image 4).toNat
  let chrPages := (headerByte image 5).toNat
  let body := image.drop (bodyStart (headerByte image 6))
  { prgPages := prgPages
    chrPages := chrPages
    mapper := headerMapper (headerByte image 6) (headerByte image 7)
    mirroring := headerMirroring (headerByte image 6)
    prg := Memory.ofBytesFrom 0 (body.take (prgPages * 16384))
    chr := Memory.ofBytesFrom 0 ((body.drop (prgPages * 16384)).take (chrPages * 8192)) }

/-- Loading an image: bad magic aborts (R89, R504); a mapper other than 0 (R90), a number of PRG pages other than 1 or
2 (R89, R91), more than one CHR page (R92) and a short image (R89) are refused. -/
def parseImage (image : List Byte) : Host.Outcome Cartridge Fault Refusal :=
  let cart := imageCartridge image
  if image.take 4 ≠ magicBytes then .fault .badMagic
  else if cart.mapper ≠ 0 then .refused .unsupportedMapper
  else if cart.prgPages ≠ 1 ∧ cart.prgPages ≠ 2 then .refused .unsupportedPrgPages
  else if 1 < cart.chrPages then .refused .unsupportedChrPages
  else if image.length < bodyStart (headerByte image 6) + cart.prgPages * 16384 + cart.chrPages * 8192 then
    .refused .shortImage
  else .next cart

/-- What power-on draws (R500, U5 to U8): the CPU registers, which nothing reads before `reset()`, and the bytes of every
RAM in order. Log entry 12. -/
structure PowerOnDraws where
  a           : Byte
  x           : Byte
  y           : Byte
  sp          : Byte
  pc          : Addr
  p           : Flags
  totalCycles : Nat
  ram         : List Byte
  prgRam      : List Byte
  chrRam      : List Byte
  oam         : List Byte
  palette     : List Byte
  ciram       : List Byte
deriving DecidableEq, Repr

/-- A store of the given size with the drawn bytes from address 0 up; bytes past the size are not used, and a byte not
given is what an unlisted address reads as. -/
def drawn (size : Nat) (bytes : List Byte) : Memory := Memory.ofBytesFrom 0 (bytes.take size)

/-- The size of nametable RAM: four banks for a four-screen cartridge, else two (R49, R96). -/
def ciramSize (m : Mirroring) : Nat :=
  match m with
  | .fourScreen => 0x1000
  | .vertical | .horizontal => 0x800

/-- The power-on state of a loaded session (R500); the palette draws are six bits each (R49, U8). -/
def powerOn (params : Params) (cart : Cartridge) (d : PowerOnDraws) : State where
  a           := d.a
  x           := d.x
  y           := d.y
  sp          := d.sp
  pc          := d.pc
  p           := d.p
  cycles      := 0
  totalCycles := d.totalCycles
  halted      := false
  nmiPending  := false
  irqPending  := false
  ram         := drawn 0x800 d.ram
  prgRam      := drawn 0x2000 d.prgRam
  cart        := if cart.chrPages = 0 then { cart with chr := drawn 0x2000 d.chrRam } else cart
  ppu         := { Ppu.atPowerOn with
                   oam := drawn 0x100 d.oam
                   palette := drawn 0x20 (d.palette.map (· &&& 0x3F))
                   ciram := drawn (ciramSize cart.mirroring) d.ciram }
  pads        := Controllers.atPowerOn
  params      := params
  phase       := .poweredOn
  draws       := 0

/-- `reset()` (R501). It makes no bus access and touches neither pc, memory, the PPU nor the controllers; pc has no value to
read until `start()` (R34). -/
def cpuReset (s : State) : State :=
  { s with
    a := 0, x := 0, y := 0, sp := 0xFD, p := Flags.atReset, totalCycles := 7
    halted := false, nmiPending := false, irqPending := false, phase := .afterReset }

/-- The phase after `start()`: a session that has never been reset still has no registers to read (R30, R500). -/
def Phase.started : Phase → Phase
  | .poweredOn => .poweredOn
  | .afterReset | .running => .running

/-- `start()`: pc from the reset vector; no cycle is charged (R502). -/
def start (s : State) : State :=
  let r := read16 resetVector s
  (r.2.setPc r.1).setPhase s.phase.started

/-- The boot sequence (R503): load, power on, `reset()`, `start()`, and in trace-validation mode the entry pc (D43). The
entry pc is given to the boot alone: DESIGN CHOICE, log entry 19. -/
def boot (params : Params) (image : List Byte) (d : PowerOnDraws) (traceEntry : Option Addr) : Result :=
  match parseImage image with
  | .fault r => .fault r
  | .refused r => .refused r
  | .next cart =>
    let s := start (cpuReset (powerOn params cart d))
    .next (match traceEntry with
      | none => s
      | some pc => s.setPc pc)

/-- A controller port (R470). -/
inductive Port where
  | one
  | two
deriving DecidableEq, Repr

/-- What the host may do between two steps. -/
inductive HostInput where
  /-- Set a port's button byte (R473). -/
  | buttons (port : Port) (b : Byte)
  /-- Drive the IRQ line (R403). -/
  | irq (level : Bool)
  /-- Take the finished frame: `frame_ready` is cleared (R437). -/
  | takeFrame
  /-- `reset()` then `start()` (R505); pc is the reset vector's, also in trace-validation mode (log entry 19). -/
  | reset
deriving DecidableEq, Repr

/-- The button byte of one port replaced; while strobe is 1 its shift register follows (R473, D35). Log entry 18. -/
def setButtons (port : Port) (b : Byte) (pads : Controllers) : Controllers :=
  match port with
  | .one => { pads with pad1 := { buttons := b, shift := if pads.strobe then b else pads.pad1.shift } }
  | .two => { pads with pad2 := { buttons := b, shift := if pads.strobe then b else pads.pad2.shift } }

/-- A host input at a step boundary. Log entry 13. A reset during a run loads pc from the reset vector; that
`TRACE_ENTRY_PC` (D43) is not applied again then is a DESIGN CHOICE, log entry 19. -/
def applyHost (h : HostInput) (s : State) : State :=
  match h with
  | .buttons port b => s.setPads (setButtons port b s.pads)
  | .irq level => s.setIrq level
  | .takeFrame => s.setPpu { s.ppu with frameReady := false }
  | .reset => start (cpuReset s)

/-- The snapshot a trace harness compares before each step: (pc, A, X, Y, PackP(0), SP, total_cycles) (R206); refused, as
a step is, while the registers have no value to read. -/
def traceSnapshot (s : State) :
    Host.Outcome (Addr × Byte × Byte × Byte × Byte × Byte × Nat) Fault Refusal :=
  whenStarted s (.next (s.pc, s.a, s.x, s.y, s.p.pack false, s.sp, s.totalCycles))

end Sys2Proof.Machine
end

