-- ==== Sys2Proof/Safety.lean ====
section
/-! DEFINITION. The states a run can be in, as decidable predicates, and what a safe run is. -/

namespace Sys2Proof.Machine

/-- A store is in canonical form and lists addresses below its size only. -/
def Memory.ok (m : Memory) (size : Nat) : Bool := m.wf && m.below size

/-- The frame buffer lists rows in rising order, each below 240 and 256 pixels wide (R456). -/
def frameOk (fb : List FrameRow) : Bool :=
  keyedRising 0 fb && fb.all fun row => decide (row.1 < 240) && row.2.length == 256

/-- A cartridge mapper 0 admits (R90 to R92), its ROM in canonical form. -/
def Cartridge.ok (c : Cartridge) : Bool :=
  c.mapper == 0 && (c.prgPages == 1 || c.prgPages == 2) && decide (c.chrPages ≤ 1) &&
    c.prg.ok (c.prgPages * 0x4000) && c.chr.ok 0x2000

/-- The palette holds six significant bits in each entry (R98). -/
def paletteOk (m : Memory) : Bool := m.ok 0x20 && m.all fun cell => decide (cell.2 < 0x40)

/-- The PPU counters are in range (R49), overflow is 0 (R452), every store is in canonical form and size. -/
def Ppu.ok (p : Ppu) : Bool :=
  decide (p.dot < 341) && decide (p.scanline < 262) && !p.overflow && p.oam.ok 0x100 && paletteOk p.palette &&
    p.ciram.ok 0x1000 && frameOk p.fb

/-- The invariant of a session: memories in canonical form and size, the cartridge admitted, the PPU in range. -/
def State.ok (s : State) : Bool :=
  s.ram.ok 0x800 && s.prgRam.ok 0x2000 && s.cart.ok && s.ppu.ok

/-- The machine can go on for n steps. -/
def runsFor (n : Nat) (s : State) : Prop := ∃ t : State, Host.Core.run Sys2Proof.core n s = .next t

/-- A safe run never stops, with a fault or a refusal (R10, R400). -/
def runsForever (s : State) : Prop := ∀ n, runsFor n s

end Sys2Proof.Machine
end

