-- ==== Sys2Proof/Certificates/Slice0/Obligations.lean ====
section
/-! DEFINITION. The statements about the machine, from the numbered rules of spec/. The definitions before them restate
what the rules say in their own terms (the "Encoding" line of each rule, effective addresses, integer arithmetic), so that
a statement holds the model against the rule and not against itself. -/

namespace Sys2Proof.Claims

open Sys2Proof.Machine

/-- One entry of a rule's "Encoding" line: opcode byte, addressing mode, base cycles, `+p`. -/
structure Enc where
  op   : Byte
  mode : Mode
  base : Nat
  pen  : Bool
deriving DecidableEq, Repr

/-- N and Z from a byte (R9). -/
def nz (p : Flags) (v : Byte) : Flags := { p with n := v.getLsbD 7, z := decide (v = 0) }

/-- A pointer in the zero page, low byte first, both bytes inside it (R153, R154). -/
def pointerAt (s : State) (b : Byte) : Addr := w16 (s.ram.read (b + 1).toNat) (s.ram.read b.toNat)

/-- The address a mode indexes from (R146 to R154); 0 for the two operands that have none. -/
def baseOf (o : Operand) (s : State) : Addr :=
  match o with
  | .acc | .imm _ => 0
  | .zp b => b.setWidth 16
  | .zpx b => (b + s.x).setWidth 16
  | .zpy b => (b + s.y).setWidth 16
  | .abs a | .abx a | .aby a => a
  | .izx b => pointerAt s (b + s.x)
  | .izy b => pointerAt s b

/-- The effective address (R146 to R154). -/
def eaOf (o : Operand) (s : State) : Addr :=
  match o with
  | .abx _ => baseOf o s + s.x.setWidth 16
  | .aby _ | .izy _ => baseOf o s + s.y.setWidth 16
  | .acc | .imm _ | .zp _ | .zpx _ | .zpy _ | .abs _ | .izx _ => baseOf o s

/-- `crossed` (R150, R151, R154). -/
def crosses (o : Operand) (s : State) : Bool := hi (baseOf o s) != hi (eaOf o s)

/-- The operand's value, and the state after its one read (R144, R145, R162). -/
def readOf (o : Operand) (s : State) : Byte × State :=
  match o with
  | .acc => (s.a, s)
  | .imm b => (b, s)
  | .zp _ | .zpx _ | .zpy _ | .abs _ | .abx _ | .aby _ | .izx _ | .izy _ => memRead (eaOf o s) s

/-- The state after a result's one write, at an effective address taken from the state before the read (R163). -/
def writeOf (o : Operand) (ea : Addr) (b : Byte) (s : State) : State :=
  match o with
  | .acc => { s with a := b }
  | .imm _ => s
  | .zp _ | .zpx _ | .zpy _ | .abs _ | .abx _ | .aby _ | .izx _ | .izy _ => memWrite ea b s

/-- Base cycles and page-cross penalty (R198, R199). -/
def Enc.cost (e : Enc) (o : Operand) (s : State) : Nat := e.base + (if e.pen && crosses o s then 1 else 0)

/-- A reading instruction: every form of its "Encoding" line decodes to it, and it answers the next state `eff v s'`,
where v is the operand and s' the state after the read with the row's cycles charged. -/
def Reads (line : List Enc) (mk : Byte → Operand → Instr) (eff : Byte → State → State) : Prop :=
  ∀ e ∈ line, ∀ (o : Operand) (s : State), o.mode = e.mode →
    decode (e.op :: o.bytes) = .ok (mk e.op o, []) ∧
    exec (mk e.op o) s = .next (eff (readOf o s).1 { (readOf o s).2 with cycles := s.cycles + e.cost o s })

/-- A storing instruction: every form decodes to it, and it answers the state after one write of `val s` at the
effective address, with no read, and the row's cycles charged. -/
def Stores (line : List Enc) (mk : Operand → Instr) (val : State → Byte) : Prop :=
  ∀ e ∈ line, ∀ (o : Operand) (s : State), o.mode = e.mode →
    decode (e.op :: o.bytes) = .ok (mk o, []) ∧
    exec (mk o) s = .next { memWrite (eaOf o s) (val s) s with
      cycles := (memWrite (eaOf o s) (val s) s).cycles + e.cost o s }

/-- A read-modify-write instruction: every form decodes to it, and it answers `eff v s'`, where v is the operand and s'
the state after one read and one write of `f c v`, c the old carry, with the row's cycles charged. -/
def Modifies (line : List Enc) (mk : Operand → Instr) (f : Bool → Byte → Byte) (eff : Byte → State → State) : Prop :=
  ∀ e ∈ line, ∀ (o : Operand) (s : State), o.mode = e.mode →
    decode (e.op :: o.bytes) = .ok (mk o, []) ∧
    exec (mk o) s = .next (eff (readOf o s).1
      { writeOf o (eaOf o s) (f s.p.c (readOf o s).1) (readOf o s).2 with
        cycles := (writeOf o (eaOf o s) (f s.p.c (readOf o s).1) (readOf o s).2).cycles + e.cost o s })

/-- A one-byte instruction with no operand. -/
def Implied (op : Byte) (i : Instr) (eff : State → State) : Prop :=
  decode [op] = .ok (i, []) ∧ ∀ s : State, exec i s = .next (eff s)

/-- A two-byte instruction with an immediate byte. -/
def Immediate (op : Byte) (mk : Byte → Instr) (eff : Byte → State → State) : Prop :=
  ∀ b : Byte, decode [op, b] = .ok (mk b, []) ∧ ∀ s : State, exec (mk b) s = .next (eff b s)

/-- A + m + C as naturals and as signed numbers (R250, R252). -/
def addTo (s : State) (m : Byte) : State :=
  let sum : Nat := s.a.toNat + m.toNat + s.p.c.toNat
  let signed : Int := s.a.toInt + m.toInt + (s.p.c.toNat : Int)
  let r : Byte := BitVec.ofNat 8 sum
  { s with a := r, p := { nz s.p r with c := decide (255 < sum), v := decide (signed < -128 ∨ 127 < signed) } }

/-- A - m - (1 - C) as integers (R253). -/
def subFrom (s : State) (m : Byte) : State :=
  let borrow : Int := if s.p.c then 0 else 1
  let diff : Int := (s.a.toNat : Int) - (m.toNat : Int) - borrow
  let signed : Int := s.a.toInt - m.toInt - borrow
  let r : Byte := BitVec.ofInt 8 diff
  { s with a := r, p := { nz s.p r with c := decide (0 ≤ diff), v := decide (signed < -128 ∨ 127 < signed) } }

/-- The flags of a comparison (R251): C unsigned not-less, Z equal, N bit 7 of the difference. -/
def compared (p : Flags) (reg m : Byte) : Flags :=
  { p with c := decide (m.toNat ≤ reg.toNat), z := decide (reg = m), n := (reg - m).getLsbD 7 }

/-- `Shl` as a number (R290). -/
def shl1 (v : Byte) : Byte := BitVec.ofNat 8 (2 * v.toNat)

/-- `Shr` as a number (R290). -/
def shr1 (v : Byte) : Byte := BitVec.ofNat 8 (v.toNat / 2)

/-- `Rol` as a number (R290). -/
def rol1 (c : Bool) (v : Byte) : Byte := BitVec.ofNat 8 (2 * v.toNat + c.toNat)

/-- `Ror` as a number (R290). -/
def ror1 (c : Bool) (v : Byte) : Byte := BitVec.ofNat 8 (v.toNat / 2 + 128 * c.toNat)

/-- The status byte a push builds (R37). -/
def packed (p : Flags) (b : Bool) : Byte :=
  BitVec.ofNat 8 (128 * p.n.toNat + 64 * p.v.toNat + 32 + 16 * b.toNat + 8 * p.d.toNat + 4 * p.i.toNat + 2 * p.z.toNat +
    p.c.toNat)

/-- The index in `ram` of the stack byte SP points at (R33). -/
def stackCell (sp : Byte) : Nat := 0x100 + sp.toNat

/-- A byte of the program ROM by its CPU address under mapper 0: 16 KB mirrored, or 32 KB (R77, R91). -/
def rom (s : State) (a : Addr) : Byte :=
  s.cart.prg.read (if s.cart.prgPages = 1 then (a.toNat - 0x8000) % 0x4000 else a.toNat - 0x8000)

/-- The byte a CPU address holds where a backing store answers it (R72, R76, R77); none for the devices and the
undriven addresses. -/
def peek (s : State) (a : Addr) : Option Byte :=
  if a.toNat < 0x2000 then some (s.ram.read (a.toNat % 0x800))
  else if a.toNat < 0x6000 then none
  else if a.toNat < 0x8000 then
    (match s.params.prgRamMode with
     | .ram => some (s.prgRam.read (a.toNat % 0x2000))
     | .stub => none)
  else some (rom s a)

/-- The three pushes of an entry: the return address high byte first, then the status byte with its break bit, I set,
pc from a vector in program ROM (R405, R314). -/
def entered (vec ret : Addr) (brk : Bool) (s : State) : State :=
  { s with
    ram := ((s.ram.write (stackCell s.sp) (hi ret)).write (stackCell (s.sp - 1)) (lo ret)).write (stackCell (s.sp - 2))
      (packed s.p brk)
    sp := s.sp - 3
    p := { s.p with i := true }
    pc := w16 (rom s (vec + 1)) (rom s vec) }

/-- A branch (R155, R315, R200): pc after the operand byte plus the signed displacement, 2, 3 or 4 cycles. -/
def branched (cond : Bool) (disp : Byte) (s : State) : State :=
  let target : Addr := BitVec.ofInt 16 ((s.pc.toNat : Int) + disp.toInt)
  if cond then { s with pc := target, cycles := s.cycles + (if hi s.pc = hi target then 3 else 4) }
  else { s with cycles := s.cycles + 2 }

/-- Where the unstable stores write: on a page cross the stored value is the high byte of the address (R369). -/
def underHighAddr (o : Operand) (reg : Byte) (s : State) : Addr :=
  if crosses o s then w16 (reg &&& (hi (baseOf o s) + 1)) (lo (eaOf o s)) else eaOf o s

/-- The unstable store (R369 to R372): the register AND (H + 1), one write. -/
def storedUnderHigh (o : Operand) (reg : Byte) (base : Nat) (s : State) : State :=
  let t := memWrite (underHighAddr o reg s) (reg &&& (hi (baseOf o s) + 1)) s
  { t with cycles := t.cycles + base }

/-- The addresses an instruction writes on the CPU bus. -/
def storedAt (i : Instr) (s : State) : List Addr :=
  let mem (o : Operand) : List Addr := if o = .acc then [] else [eaOf o s]
  let slot (n : Byte) : Addr := 0x0100 + (s.sp - n).setWidth 16
  match i with
  | .sta o | .stx o | .sty o | .sax o | .inc o | .dec o | .asl o | .lsr o | .rol o | .ror o | .slo o | .rla o | .sre o
  | .rra o | .dcp o | .isb o => mem o
  | .sha o => [underHighAddr o (s.a &&& s.x) s]
  | .shx a => [underHighAddr (.aby a) s.x s]
  | .shy a => [underHighAddr (.abx a) s.y s]
  | .tas a => [underHighAddr (.aby a) (s.a &&& s.x) s]
  | .pha | .php => [slot 0]
  | .jsr _ => [slot 0, slot 1]
  | .brk | .nmi | .irq => [slot 0, slot 1, slot 2]
  | .lda _ | .ldx _ | .ldy _ | .tax | .tay | .txa | .tya | .tsx | .txs | .adc _ | .sbc _ | .and _ | .ora _ | .eor _
  | .bit _ | .cmp _ | .cpx _ | .cpy _ | .inx | .iny | .dex | .dey | .pla | .plp | .jmp _ | .rts | .rti | .bpl _ | .bmi _
  | .bvc _ | .bvs _ | .bcc _ | .bcs _ | .bne _ | .beq _ | .clc | .sec | .cli | .sei | .cld | .sed | .clv | .nop | .lax _
  | .sbcU _ | .nopU _ _ | .anc _ _ | .alr _ | .arr _ | .axs _ | .las _ | .xaa _ | .lxa _ | .jam _ => []

/-- n bytes read at pc and up through the bus (R140, R194). -/
def fetchBytes : Nat → State → List Byte × State
  | 0, s => ([], s)
  | n + 1, s =>
    let r := memRead s.pc s
    let q := fetchBytes n { r.2 with pc := s.pc + 1 }
    (r.1 :: q.1, q.2)

/-- The end of a step: the total counter, then three ticks a cycle (R190, R202). -/
def finished (s : State) : State := ppuTicks (3 * s.cycles) { s with totalCycles := s.totalCycles + s.cycles }

/-- The place of the next dot in the frame (R421). -/
def dotPos (p : Ppu) : Nat := p.scanline * 341 + p.dot

/-- The dots of a frame (R421). -/
def frameDots : Nat := 89342

/-- The place of the vblank dot, (241, 1). -/
def vblankDot : Nat := 241 * 341 + 1

/-- The place of the pre-render line's dot 1, (261, 1). -/
def preRenderDot : Nat := 261 * 341 + 1

/-- The last dot of a frame, (261, 340). -/
def lastDotOfFrame : Nat := frameDots - 1

/-- The PPU after the event of the dot a tick processes (R424): the line rendered at RENDER_DOT of a visible line; vblank
entered at (241, 1); the flags cleared at (261, 1); nothing at any other dot. -/
def afterEvent (s : State) : Ppu :=
  if s.ppu.scanline < 240 ∧ s.ppu.dot = s.params.renderDot.val then
    renderLine s.params s.cart s.ppu.scanline s.ppu
  else if dotPos s.ppu = vblankDot then { s.ppu with vblank := true, s0hit := false }
  else if dotPos s.ppu = preRenderDot then { s.ppu with vblank := false, s0hit := false, overflow := false }
  else s.ppu

/-- n bytes pushed, the head first (R43). -/
def pushAll : List Byte → State → State
  | [], s => s
  | b :: rest, s => pushAll rest (push b s)

/-- n bytes pulled (R44). -/
def pullN : Nat → State → List Byte × State
  | 0, s => ([], s)
  | n + 1, s =>
    let r := pull s
    let q := pullN n r.2
    (r.1 :: q.1, q.2)

/-- The state before the n-th read of an address, counted from 0. -/
def afterReads (a : Addr) : Nat → State → State
  | 0, s => s
  | n + 1, s => afterReads a n (memRead a s).2

/-- Coarse X of a VRAM register (R458). -/
def coarseX (v : VramReg) : Nat := v.toNat % 32

/-- Coarse Y (R458). -/
def coarseY (v : VramReg) : Nat := v.toNat / 32 % 32

/-- The nametable select, horizontal bit (R458). -/
def nametableX (v : VramReg) : Nat := v.toNat / 1024 % 2

/-- The nametable select, vertical bit (R458). -/
def nametableY (v : VramReg) : Nat := v.toNat / 2048 % 2

/-- Fine Y (R458). -/
def fineY (v : VramReg) : Nat := v.toNat / 4096

/-- The pixel b of the background tile in column col and row row of a nametable, and its palette number, in the tile
coordinates of R455: tile index, attribute byte, quadrant, and the two planes of row fy. -/
def tilePixelAt (cart : Cartridge) (ppu : Ppu) (nametable col row fy b : Nat) : BgPixel :=
  let tile := ppuRead cart ppu (BitVec.ofNat 14 (0x2000 + nametable * 0x400 + row * 32 + col))
  let attr := ppuRead cart ppu (BitVec.ofNat 14 (0x23C0 + nametable * 0x400 + row / 4 * 8 + col / 4))
  let table := if ppu.ctrl.getLsbD 4 then 0x1000 else 0
  let low := ppuRead cart ppu (BitVec.ofNat 14 (table + tile.toNat * 16 + fy))
  let high := ppuRead cart ppu (BitVec.ofNat 14 (table + tile.toNat * 16 + fy + 8))
  (BitVec.ofNat 2 (2 * (high.getLsbD (7 - b)).toNat + (low.getLsbD (7 - b)).toNat),
   BitVec.ofNat 2 (attr.toNat / 2 ^ (row / 2 % 2 * 4 + col / 2 % 2 * 2)))

/-- Sprite n shows on line sl (R428). -/
def spriteOn (ppu : Ppu) (sl n : Nat) : Bool :=
  decide (n < 64) && decide ((ppu.oam.read (4 * n)).toNat + 1 ≤ sl) &&
    decide (sl < (ppu.oam.read (4 * n)).toNat + 1 + (if ppu.ctrl.getLsbD 5 then 16 else 8))

/-- Sprite n is one of the first eight in OAM order that show on line sl (R428). -/
def spriteShown (ppu : Ppu) (sl n : Nat) : Bool :=
  spriteOn ppu sl n && decide (((List.range n).filter (spriteOn ppu sl)).length < 8)

/-- The PPU address of the low plane of the row of sprite n that line sl shows (R428, R429): the row counted from the
other end under vertical flip; 8x8 tiles from the table of PPUCTRL bit 3; 8x16 pairs from the table of tile bit 0. -/
def spriteRowAddr (ppu : Ppu) (sl n : Nat) : Nat :=
  let height := if ppu.ctrl.getLsbD 5 then 16 else 8
  let tile := (ppu.oam.read (4 * n + 1)).toNat
  let row := sl - ((ppu.oam.read (4 * n)).toNat + 1)
  let r := if (ppu.oam.read (4 * n + 2)).getLsbD 7 then height - 1 - row else row
  if ppu.ctrl.getLsbD 5 then
    (if tile % 2 = 1 then 0x1000 else 0) + (if r < 8 then tile - tile % 2 else tile - tile % 2 + 1) * 16 + r % 8
  else (if ppu.ctrl.getLsbD 3 then 0x1000 else 0) + tile * 16 + r

/-- The opaque pixel sprite n puts at column sx of line sl, if any (R428, R429, R454): inside its eight columns, from the
right end under horizontal flip, not in the masked left columns. -/
def spritePixelAt (cart : Cartridge) (ppu : Ppu) (sl n sx : Nat) : Option SpritePixel :=
  let attr := ppu.oam.read (4 * n + 2)
  let left := (ppu.oam.read (4 * n + 3)).toNat
  let low := ppuRead cart ppu (BitVec.ofNat 14 (spriteRowAddr ppu sl n))
  let high := ppuRead cart ppu (BitVec.ofNat 14 (spriteRowAddr ppu sl n + 8))
  let bit := if attr.getLsbD 6 then sx - left else 7 - (sx - left)
  let value := 2 * (high.getLsbD bit).toNat + (low.getLsbD bit).toNat
  if sx < left ∨ left + 7 < sx ∨ value = 0 ∨ (ppu.mask.getLsbD 2 = false ∧ sx < 8) then none
  else some
    { bits := BitVec.ofNat 2 value, pal := BitVec.ofNat 2 (attr.toNat % 4)
      behind := attr.getLsbD 5, isZero := decide (n = 0) }

/-- The frame-buffer row of a visible line: the line with FB_HEIGHT = 240, the line less 8 with 224, where the first and
last eight lines have none (R456). -/
def shownIn (h : FbHeight) (sl row : Nat) : Prop :=
  (h = .h240 ∧ row = sl) ∨ (h = .h224 ∧ 8 ≤ sl ∧ sl < 232 ∧ row = sl - 8)

/-- The state after the first n bytes of a page are copied to OAM, each by one bus read (R101). -/
def dmaBytes (page : Byte) : Nat → State → State
  | 0, s => s
  | n + 1, s =>
    let t := dmaBytes page n s
    let r := memRead (BitVec.ofNat 16 (page.toNat * 256 + n)) t
    { r.2 with ppu := { r.2.ppu with oam := r.2.ppu.oam.write n r.1 } }

/-- The "Encoding" line of R220. -/
def ldaLine : List Enc :=
  [⟨0xA1, .izx, 6, false⟩, ⟨0xA5, .zp, 3, false⟩, ⟨0xA9, .imm, 2, false⟩, ⟨0xAD, .abs, 4, false⟩,
   ⟨0xB1, .izy, 5, true⟩, ⟨0xB5, .zpx, 4, false⟩, ⟨0xB9, .aby, 4, true⟩, ⟨0xBD, .abx, 4, true⟩]

/-- The "Encoding" line of R221. -/
def ldxLine : List Enc :=
  [⟨0xA2, .imm, 2, false⟩, ⟨0xA6, .zp, 3, false⟩, ⟨0xAE, .abs, 4, false⟩, ⟨0xB6, .zpy, 4, false⟩,
   ⟨0xBE, .aby, 4, true⟩]

/-- The "Encoding" line of R222. -/
def ldyLine : List Enc :=
  [⟨0xA0, .imm, 2, false⟩, ⟨0xA4, .zp, 3, false⟩, ⟨0xAC, .abs, 4, false⟩, ⟨0xB4, .zpx, 4, false⟩,
   ⟨0xBC, .abx, 4, true⟩]

/-- The "Encoding" line of R223. -/
def staLine : List Enc :=
  [⟨0x81, .izx, 6, false⟩, ⟨0x85, .zp, 3, false⟩, ⟨0x8D, .abs, 4, false⟩, ⟨0x91, .izy, 6, false⟩,
   ⟨0x95, .zpx, 4, false⟩, ⟨0x99, .aby, 5, false⟩, ⟨0x9D, .abx, 5, false⟩]

/-- The "Encoding" line of R224. -/
def stxLine : List Enc :=
  [⟨0x86, .zp, 3, false⟩, ⟨0x8E, .abs, 4, false⟩, ⟨0x96, .zpy, 4, false⟩]

/-- The "Encoding" line of R225. -/
def styLine : List Enc :=
  [⟨0x84, .zp, 3, false⟩, ⟨0x8C, .abs, 4, false⟩, ⟨0x94, .zpx, 4, false⟩]

/-- The "Encoding" line of R252. -/
def adcLine : List Enc :=
  [⟨0x61, .izx, 6, false⟩, ⟨0x65, .zp, 3, false⟩, ⟨0x69, .imm, 2, false⟩, ⟨0x6D, .abs, 4, false⟩,
   ⟨0x71, .izy, 5, true⟩, ⟨0x75, .zpx, 4, false⟩, ⟨0x79, .aby, 4, true⟩, ⟨0x7D, .abx, 4, true⟩]

/-- The "Encoding" line of R253. -/
def sbcLine : List Enc :=
  [⟨0xE1, .izx, 6, false⟩, ⟨0xE5, .zp, 3, false⟩, ⟨0xE9, .imm, 2, false⟩, ⟨0xED, .abs, 4, false⟩,
   ⟨0xF1, .izy, 5, true⟩, ⟨0xF5, .zpx, 4, false⟩, ⟨0xF9, .aby, 4, true⟩, ⟨0xFD, .abx, 4, true⟩]

/-- The "Encoding" line of R254. -/
def andLine : List Enc :=
  [⟨0x21, .izx, 6, false⟩, ⟨0x25, .zp, 3, false⟩, ⟨0x29, .imm, 2, false⟩, ⟨0x2D, .abs, 4, false⟩,
   ⟨0x31, .izy, 5, true⟩, ⟨0x35, .zpx, 4, false⟩, ⟨0x39, .aby, 4, true⟩, ⟨0x3D, .abx, 4, true⟩]

/-- The "Encoding" line of R255. -/
def oraLine : List Enc :=
  [⟨0x01, .izx, 6, false⟩, ⟨0x05, .zp, 3, false⟩, ⟨0x09, .imm, 2, false⟩, ⟨0x0D, .abs, 4, false⟩,
   ⟨0x11, .izy, 5, true⟩, ⟨0x15, .zpx, 4, false⟩, ⟨0x19, .aby, 4, true⟩, ⟨0x1D, .abx, 4, true⟩]

/-- The "Encoding" line of R256. -/
def eorLine : List Enc :=
  [⟨0x41, .izx, 6, false⟩, ⟨0x45, .zp, 3, false⟩, ⟨0x49, .imm, 2, false⟩, ⟨0x4D, .abs, 4, false⟩,
   ⟨0x51, .izy, 5, true⟩, ⟨0x55, .zpx, 4, false⟩, ⟨0x59, .aby, 4, true⟩, ⟨0x5D, .abx, 4, true⟩]

/-- The "Encoding" line of R257. -/
def bitLine : List Enc :=
  [⟨0x24, .zp, 3, false⟩, ⟨0x2C, .abs, 4, false⟩]

/-- The "Encoding" line of R258. -/
def cmpLine : List Enc :=
  [⟨0xC1, .izx, 6, false⟩, ⟨0xC5, .zp, 3, false⟩, ⟨0xC9, .imm, 2, false⟩, ⟨0xCD, .abs, 4, false⟩,
   ⟨0xD1, .izy, 5, true⟩, ⟨0xD5, .zpx, 4, false⟩, ⟨0xD9, .aby, 4, true⟩, ⟨0xDD, .abx, 4, true⟩]

/-- The "Encoding" line of R259. -/
def cpxLine : List Enc :=
  [⟨0xE0, .imm, 2, false⟩, ⟨0xE4, .zp, 3, false⟩, ⟨0xEC, .abs, 4, false⟩]

/-- The "Encoding" line of R260. -/
def cpyLine : List Enc :=
  [⟨0xC0, .imm, 2, false⟩, ⟨0xC4, .zp, 3, false⟩, ⟨0xCC, .abs, 4, false⟩]

/-- The "Encoding" line of R261. -/
def incLine : List Enc :=
  [⟨0xE6, .zp, 5, false⟩, ⟨0xEE, .abs, 6, false⟩, ⟨0xF6, .zpx, 6, false⟩, ⟨0xFE, .abx, 7, false⟩]

/-- The "Encoding" line of R262. -/
def decLine : List Enc :=
  [⟨0xC6, .zp, 5, false⟩, ⟨0xCE, .abs, 6, false⟩, ⟨0xD6, .zpx, 6, false⟩, ⟨0xDE, .abx, 7, false⟩]

/-- The "Encoding" line of R291. -/
def aslLine : List Enc :=
  [⟨0x06, .zp, 5, false⟩, ⟨0x0A, .acc, 2, false⟩, ⟨0x0E, .abs, 6, false⟩, ⟨0x16, .zpx, 6, false⟩,
   ⟨0x1E, .abx, 7, false⟩]

/-- The "Encoding" line of R292. -/
def lsrLine : List Enc :=
  [⟨0x46, .zp, 5, false⟩, ⟨0x4A, .acc, 2, false⟩, ⟨0x4E, .abs, 6, false⟩, ⟨0x56, .zpx, 6, false⟩,
   ⟨0x5E, .abx, 7, false⟩]

/-- The "Encoding" line of R293. -/
def rolLine : List Enc :=
  [⟨0x26, .zp, 5, false⟩, ⟨0x2A, .acc, 2, false⟩, ⟨0x2E, .abs, 6, false⟩, ⟨0x36, .zpx, 6, false⟩,
   ⟨0x3E, .abx, 7, false⟩]

/-- The "Encoding" line of R294. -/
def rorLine : List Enc :=
  [⟨0x66, .zp, 5, false⟩, ⟨0x6A, .acc, 2, false⟩, ⟨0x6E, .abs, 6, false⟩, ⟨0x76, .zpx, 6, false⟩,
   ⟨0x7E, .abx, 7, false⟩]

/-- The "Encoding" line of R351. -/
def laxLine : List Enc :=
  [⟨0xA3, .izx, 6, false⟩, ⟨0xA7, .zp, 3, false⟩, ⟨0xAF, .abs, 4, false⟩, ⟨0xB3, .izy, 5, true⟩,
   ⟨0xB7, .zpy, 4, false⟩, ⟨0xBF, .aby, 4, true⟩]

/-- The "Encoding" line of R352. -/
def saxLine : List Enc :=
  [⟨0x83, .izx, 6, false⟩, ⟨0x87, .zp, 3, false⟩, ⟨0x8F, .abs, 4, false⟩, ⟨0x97, .zpy, 4, false⟩]

/-- The "Encoding" line of R354. -/
def dcpLine : List Enc :=
  [⟨0xC3, .izx, 8, false⟩, ⟨0xC7, .zp, 5, false⟩, ⟨0xCF, .abs, 6, false⟩, ⟨0xD3, .izy, 8, false⟩,
   ⟨0xD7, .zpx, 6, false⟩, ⟨0xDB, .aby, 7, false⟩, ⟨0xDF, .abx, 7, false⟩]

/-- The "Encoding" line of R355. -/
def isbLine : List Enc :=
  [⟨0xE3, .izx, 8, false⟩, ⟨0xE7, .zp, 5, false⟩, ⟨0xEF, .abs, 6, false⟩, ⟨0xF3, .izy, 8, false⟩,
   ⟨0xF7, .zpx, 6, false⟩, ⟨0xFB, .aby, 7, false⟩, ⟨0xFF, .abx, 7, false⟩]

/-- The "Encoding" line of R356. -/
def sloLine : List Enc :=
  [⟨0x03, .izx, 8, false⟩, ⟨0x07, .zp, 5, false⟩, ⟨0x0F, .abs, 6, false⟩, ⟨0x13, .izy, 8, false⟩,
   ⟨0x17, .zpx, 6, false⟩, ⟨0x1B, .aby, 7, false⟩, ⟨0x1F, .abx, 7, false⟩]

/-- The "Encoding" line of R357. -/
def rlaLine : List Enc :=
  [⟨0x23, .izx, 8, false⟩, ⟨0x27, .zp, 5, false⟩, ⟨0x2F, .abs, 6, false⟩, ⟨0x33, .izy, 8, false⟩,
   ⟨0x37, .zpx, 6, false⟩, ⟨0x3B, .aby, 7, false⟩, ⟨0x3F, .abx, 7, false⟩]

/-- The "Encoding" line of R358. -/
def sreLine : List Enc :=
  [⟨0x43, .izx, 8, false⟩, ⟨0x47, .zp, 5, false⟩, ⟨0x4F, .abs, 6, false⟩, ⟨0x53, .izy, 8, false⟩,
   ⟨0x57, .zpx, 6, false⟩, ⟨0x5B, .aby, 7, false⟩, ⟨0x5F, .abx, 7, false⟩]

/-- The "Encoding" line of R359. -/
def rraLine : List Enc :=
  [⟨0x63, .izx, 8, false⟩, ⟨0x67, .zp, 5, false⟩, ⟨0x6F, .abs, 6, false⟩, ⟨0x73, .izy, 8, false⟩,
   ⟨0x77, .zpx, 6, false⟩, ⟨0x7B, .aby, 7, false⟩, ⟨0x7F, .abx, 7, false⟩]

/-- The "Encoding" line of R365. -/
def lasLine : List Enc :=
  [⟨0xBB, .aby, 4, true⟩]

/-- The "Encoding" line of R360, the forms with an operand. -/
def nopLine : List Enc :=
  [⟨0x04, .zp, 3, false⟩, ⟨0x0C, .abs, 4, false⟩, ⟨0x14, .zpx, 4, false⟩, ⟨0x1C, .abx, 4, true⟩,
   ⟨0x34, .zpx, 4, false⟩, ⟨0x3C, .abx, 4, true⟩, ⟨0x44, .zp, 3, false⟩, ⟨0x54, .zpx, 4, false⟩,
   ⟨0x5C, .abx, 4, true⟩, ⟨0x64, .zp, 3, false⟩, ⟨0x74, .zpx, 4, false⟩, ⟨0x7C, .abx, 4, true⟩,
   ⟨0x80, .imm, 2, false⟩, ⟨0x82, .imm, 2, false⟩, ⟨0x89, .imm, 2, false⟩, ⟨0xC2, .imm, 2, false⟩,
   ⟨0xD4, .zpx, 4, false⟩, ⟨0xDC, .abx, 4, true⟩, ⟨0xE2, .imm, 2, false⟩, ⟨0xF4, .zpx, 4, false⟩,
   ⟨0xFC, .abx, 4, true⟩]

/-- The "Encoding" line of R369. -/
def shaLine : List Enc := [⟨0x93, .izy, 6, false⟩, ⟨0x9F, .aby, 5, false⟩]

/-- The opcodes of R360 with no operand. -/
def nopImplied : List Byte := [0x1A, 0x3A, 0x5A, 0x7A, 0xDA, 0xFA]

/-- The opcodes of R373. -/
def jamLine : List Byte := [0x02, 0x12, 0x22, 0x32, 0x42, 0x52, 0x62, 0x72, 0x92, 0xB2, 0xD2, 0xF2]

/-- The unstable opcodes of R366. -/
def unstableLine : List Byte := [0x8B, 0xAB, 0x93, 0x9F, 0x9B, 0x9C, 0x9E]

end Sys2Proof.Claims

open Sys2Proof Sys2Proof.Machine Sys2Proof.Claims

/-! ### Encoding -/

/-- Decoding the bytes of a well-formed instruction gives it back, with the bytes after it untouched (R140, R157, R161). -/
def Obligations.DecodeOfEncode : Prop :=
  ∀ (i : Instr) (rest : List Byte), i.wf = true → i.fetchable = true → decode (encode i ++ rest) = .ok (i, rest)

/-- What the decoder reads is well formed and encodes to the bytes it was read from (R140, R157, R161). -/
def Obligations.EncodeOfDecode : Prop :=
  ∀ (bytes rest : List Byte) (i : Instr), decode bytes = .ok (i, rest) →
    encode i ++ rest = bytes ∧ i.wf = true ∧ i.fetchable = true

/-- No byte is reserved and the opcode alone tells mnemonic, mode and length (R159, R161; R159 follows decision D7 and
D42): every opcode byte with enough bytes after it decodes, the operand bytes never change which row it is, and with
too few bytes the decoder rejects it by name. -/
def Obligations.EveryByteDecodes : Prop :=
  (∀ (op l h : Byte) (rest : List Byte), ∃ i, decode (op :: l :: h :: rest) =
      .ok (i, (l :: h :: rest).drop (descriptor op).mode.operandBytes) ∧ i.wf = true ∧
      i.mnemonic = (descriptor op).mnemonic ∧ i.mode = (descriptor op).mode) ∧
  (∀ (op : Byte) (short : List Byte), short.length < (descriptor op).mode.operandBytes →
      decode (op :: short) = .error (.truncated op)) ∧
  decode [] = .error .noBytes

/-- Words written out from the "Encoding" lines of the rules, one or more of each family, decode to the instruction they
stand for. A sanity statement. -/
def Obligations.SampleWordsDecode : Prop :=
  decode [0xB1, 0x12] = .ok (.lda (.izy 0x12), []) ∧
  decode [0x8D, 0x34, 0x12] = .ok (.sta (.abs 0x1234), []) ∧
  decode [0x7D, 0xFF, 0x80] = .ok (.adc (.abx 0x80FF), []) ∧
  decode [0x24, 0x80] = .ok (.bit (.zp 0x80), []) ∧
  decode [0x6A] = .ok (.ror .acc, []) ∧
  decode [0x68] = .ok (.pla, []) ∧
  decode [0x6C, 0xFF, 0x02] = .ok (.jmp (.ind 0x02FF), []) ∧
  decode [0xD0, 0xFC] = .ok (.bne 0xFC, []) ∧
  decode [0x00, 0xEA] = .ok (.brk, [0xEA]) ∧
  decode [0xF8] = .ok (.sed, []) ∧
  decode [0xD3, 0x40] = .ok (.dcp (.izy 0x40), []) ∧
  decode [0x1C, 0xFF, 0x00] = .ok (.nopU 0x1C (some (.abx 0x00FF)), []) ∧
  decode [0x2B, 0x80] = .ok (.anc 0x2B 0x80, []) ∧
  decode [0x9B, 0x00, 0x02] = .ok (.tas 0x0200, []) ∧
  decode [0xF2] = .ok (.jam 0xF2, [])

/-- The base cost and the `+p` mark of every row of R157 are those its meaning charges, and the classes have the sizes of
R158. The class split is the spec's decision (D4, D5). -/
def Obligations.OpcodeTableAgrees : Prop :=
  (∀ op : Byte, baseCycles (descriptor op).mnemonic (descriptor op).mode = (descriptor op).base ∧
    hasPenalty (descriptor op).mnemonic (descriptor op).mode = (descriptor op).pen) ∧
  ([OpClass.official, .undocumented, .unvalidated, .unstable, .jam].map fun c =>
    ((List.range 256).filter fun n => (descriptor (BitVec.ofNat 8 n)).mnemonic.opClass == c).length) =
    [151, 80, 6, 7, 12]

/-! ### The step -/

/-- When the bytes at pc decode to an instruction, and the session is started and the CPU neither halted nor entering an
interrupt, the step is the meaning of that instruction in the state after the fetches, then the end of the step: the
total counter and three PPU ticks a cycle (R190, R191, R194 to R197, R202). The order of the fetches is log entry 15. -/
def Obligations.StepRunsDecodedInstruction : Prop :=
  ∀ (s u : State) (n : Nat) (bytes : List Byte) (i : Instr),
    s.phase = .running → s.halted = false → s.nmiPending = false → (s.irqPending = false ∨ s.p.i = true) →
    fetchBytes n { s with cycles := 0 } = (bytes, u) → decode bytes = .ok (i, []) →
    u.pc = s.pc + BitVec.ofNat 16 n ∧
    step s = (match exec i u with
      | .next t => .next (finished t)
      | .fault r => .fault r
      | .refused r => .refused r)

/-- The other branches of a step of a started session, in their order (R191 to R193): a halted CPU charges one cycle and
does nothing else; a pending NMI is entered whatever the IRQ line and P.I hold; else a pending IRQ is entered if P.I is
0, and stays pending if P.I is 1. Rests on the decisions D8, D9 and D41. -/
def Obligations.InterruptPoll : Prop :=
  ∀ s : State, s.phase = .running →
    (s.halted = true → step s = .next (finished { s with cycles := 1 })) ∧
    (s.halted = false → s.nmiPending = true →
      step s = .next (finished (entered 0xFFFA s.pc false { s with nmiPending := false, cycles := 7 }))) ∧
    (s.halted = false → s.nmiPending = false → s.irqPending = true → s.p.i = false →
      step s = .next (finished (entered 0xFFFE s.pc false { s with irqPending := false, cycles := 7 }))) ∧
    (s.halted = false → s.nmiPending = false → s.irqPending = true → s.p.i = true →
      ∀ t, step s = .next t → t.irqPending = true)

/-- Every step charges at least one cycle, adds its cycles to the total, and advances the PPU by exactly three dots a
cycle around a frame of 262 lines of 341 dots (R190, R202, R421, R422). No instruction moves the dot by itself (R420). -/
def Obligations.StepAdvancesThreeDotsACycle : Prop :=
  ∀ s t : State, s.ppu.dot < 341 → s.ppu.scanline < 262 → step s = .next t →
    1 ≤ t.cycles ∧ t.totalCycles = s.totalCycles + t.cycles ∧ t.ppu.dot < 341 ∧ t.ppu.scanline < 262 ∧
    dotPos t.ppu = (dotPos s.ppu + 3 * t.cycles) % frameDots

/-- The NMI line (R402): after a step it is set exactly when the step's PPU catch-up passed the vblank dot (241, 1) with
PPUCTRL bit 7 set, or it was set already and the CPU, halted, did not service it. Nothing else sets it and nothing but
the entry clears it. -/
def Obligations.NmiLineSetOnlyByVblank : Prop :=
  ∀ s t : State, s.ppu.dot < 341 → s.ppu.scanline < 262 → step s = .next t →
    (t.nmiPending = true ↔
      (s.nmiPending = true ∧ s.halted = true) ∨
      ((∃ k < 3 * t.cycles, (dotPos s.ppu + k) % frameDots = vblankDot) ∧ t.ppu.ctrl.getLsbD 7 = true))

/-- One frame of ticks from dot (0, 0) (R434, R436, R437, R511): vblank is entered by tick 82183 and left by tick 89003,
6820 ticks later; the NMI line is raised once; the frame is marked ready. Rests on the decisions D25 and D26, and for
a frame with rendering off on log entry 14. -/
def Obligations.FrameTiming : Prop :=
  ∀ s : State, s.ppu.dot = 0 → s.ppu.scanline = 0 →
    (∀ n, n ≤ 82182 → (ppuTicks n s).ppu.vblank = s.ppu.vblank ∧ (ppuTicks n s).nmiPending = s.nmiPending) ∧
    (∀ n, 82183 ≤ n → n ≤ 89002 → (ppuTicks n s).ppu.vblank = true ∧
      (ppuTicks n s).nmiPending = (s.nmiPending || s.ppu.ctrl.getLsbD 7)) ∧
    (∀ n, 89003 ≤ n → n ≤ 89342 → (ppuTicks n s).ppu.vblank = false ∧ (ppuTicks n s).ppu.s0hit = false ∧
      (ppuTicks n s).nmiPending = (s.nmiPending || s.ppu.ctrl.getLsbD 7)) ∧
    (ppuTicks 89342 s).ppu.frameReady = true ∧ dotPos (ppuTicks 89342 s).ppu = 0

/-- `PpuTick()` (R420, R422, R424, R434 to R436): the event of the dot, then the next dot of the frame; after the last dot
v is reloaded from t if rendering, and the frame is marked ready; the NMI line is raised at the vblank dot if PPUCTRL
bit 7 is set; nothing outside the PPU and that line changes. Inside the PPU no tick changes PPUCTRL, PPUMASK, t, fine X,
the toggle, the OAM cursor, the read buffer, OAM, the palette or nametable RAM; and n ticks are n times one tick. What a
rendered line is, is LineRendering. Rests on the decisions D23, D25, D26, D45, and for a frame with rendering off on
log entry 14. -/
def Obligations.PpuTickEffect : Prop :=
  (∀ s : State, s.ppu.dot < 341 → s.ppu.scanline < 262 →
    ppuTick s = { s with
      ppu := { afterEvent s with
        dot := (dotPos s.ppu + 1) % frameDots % 341
        scanline := (dotPos s.ppu + 1) % frameDots / 341
        v := if dotPos s.ppu = lastDotOfFrame ∧ (s.ppu.mask.getLsbD 3 = true ∨ s.ppu.mask.getLsbD 4 = true) then s.ppu.t
          else (afterEvent s).v
        frameReady := s.ppu.frameReady || decide (dotPos s.ppu = lastDotOfFrame) }
      nmiPending := s.nmiPending || (decide (dotPos s.ppu = vblankDot) && s.ppu.ctrl.getLsbD 7) }) ∧
  (∀ s : State, (ppuTick s).ppu = { s.ppu with
    dot := (ppuTick s).ppu.dot, scanline := (ppuTick s).ppu.scanline, vblank := (ppuTick s).ppu.vblank
    s0hit := (ppuTick s).ppu.s0hit, overflow := (ppuTick s).ppu.overflow, v := (ppuTick s).ppu.v
    fb := (ppuTick s).ppu.fb, frameReady := (ppuTick s).ppu.frameReady }) ∧
  (∀ s : State, ppuTicks 0 s = s) ∧ (∀ (n : Nat) (s : State), ppuTicks (n + 1) s = ppuTick (ppuTicks n s))

/-- The invariant of a session is kept by every step: memories in canonical form and inside their sizes, the cartridge
one that mapper 0 admits, the PPU counters in range, the overflow flag 0, six-bit palette entries (R46 to R49, R98,
R452). -/
def Obligations.StepKeepsOk : Prop :=
  ∀ s t : State, s.ok = true → step s = .next t → t.ok = true

/-- The state after reset satisfies the invariant and holds what R501 sets and the default parameters of R6 (decisions D4,
D16, D23, D28, D36); it is the boot of R503 with the model's own blank cartridge and zero draws (log entries 3, 4, 5). -/
def Obligations.ResetOk : Prop :=
  State.reset.ok = true ∧
  State.reset.a = 0 ∧ State.reset.x = 0 ∧ State.reset.y = 0 ∧ State.reset.sp = 0xFD ∧
  State.reset.p = { n := false, v := false, d := false, i := true, z := false, c := false } ∧
  State.reset.totalCycles = 7 ∧ State.reset.halted = false ∧ State.reset.nmiPending = false ∧
  State.reset.irqPending = false ∧ State.reset.phase = .running ∧ State.reset.params.unstableMode = .refuse ∧
  State.reset.params.prgRamMode = .ram ∧ State.reset.params.renderDot.val = 256 ∧
  State.reset.params.s0NeedsBg = false ∧ State.reset.params.fbHeight = .h240 ∧
  State.reset = start (cpuReset (powerOn Params.atReset Cartridge.blank
    { a := 0, x := 0, y := 0, sp := 0, pc := 0, p := Flags.atReset, totalCycles := 0, ram := [], prgRam := [],
      chrRam := [], oam := [], palette := [], ciram := [] }))

/-- Under UNSTABLE_MODE = nmos the machine runs for any number of steps from any state of a started session: no byte
traps, no access faults (R10, R400). -/
def Obligations.RunsForeverUnderNmos : Prop :=
  ∀ s : State, s.phase = .running → s.params.unstableMode = .nmos → runsForever s

/-- No step faults, and a step of a started session is refused exactly when UNSTABLE_MODE = refuse and it fetches one of
the seven unstable opcodes (R10, R195, R366; decision D4). -/
def Obligations.RefusesOnlyUnstableOpcodes : Prop :=
  (∀ (s : State) (r : Fault), step s ≠ .fault r) ∧
  (∀ (s : State) (r : Refusal), s.phase = .running → (step s = .refused r ↔
    r = .unstableOpcode ∧ s.params.unstableMode = .refuse ∧ s.halted = false ∧ s.nmiPending = false ∧
    (s.irqPending = false ∨ s.p.i = true) ∧ (memRead s.pc { s with cycles := 0 }).1 ∈ unstableLine))

/-- The registers cannot be read before the first `reset()`, nor pc between `reset()` and `start()`: every step and every
trace snapshot there is refused, whatever the state holds (R30 to R32, R34, R500; decision D48). Power-on, `reset()` and
`start()` lead through the phases, and neither a step nor any other host input changes the phase. That the whole step is
refused is log entry 7. -/
def Obligations.NoRegisterReadBeforeReset : Prop :=
  (∀ s : State, s.phase = .poweredOn → step s = .refused .beforeReset ∧ traceSnapshot s = .refused .beforeReset) ∧
  (∀ s : State, s.phase = .afterReset → step s = .refused .beforeStart ∧ traceSnapshot s = .refused .beforeStart) ∧
  (∀ s : State, s.phase = .running →
    traceSnapshot s = .next (s.pc, s.a, s.x, s.y, packed s.p false, s.sp, s.totalCycles)) ∧
  (∀ (params : Params) (cart : Cartridge) (d : PowerOnDraws), (powerOn params cart d).phase = .poweredOn) ∧
  (∀ s : State, (cpuReset s).phase = .afterReset) ∧
  (∀ s : State, (start s).phase = if s.phase = .poweredOn then .poweredOn else .running) ∧
  (∀ s t : State, step s = .next t → s.phase = .running ∧ t.phase = .running) ∧
  (∀ (h : HostInput) (s : State), h ≠ .reset → (applyHost h s).phase = s.phase)

/-- The cartridge is immutable once loaded, but for pattern RAM when the image has no CHR-ROM (R48). -/
def Obligations.StepKeepsCartridge : Prop :=
  ∀ s t : State, step s = .next t →
    t.cart = { s.cart with chr := t.cart.chr } ∧ (s.cart.chrPages ≠ 0 → t.cart = s.cart)

/-! ### The CPU bus -/

/-- Internal RAM, mirrored every 0x800 bytes: a read has no effect, a write stores one byte, and a byte written through
one address is read through every mirror (R72). -/
def Obligations.RamIsMirrored : Prop :=
  ∀ (s : State) (a : Addr) (v : Byte), a.toNat < 0x2000 →
    memRead a s = (s.ram.read (a.toNat % 0x800), s) ∧
    memWrite a v s = { s with ram := s.ram.write (a.toNat % 0x800) v } ∧
    (s.ram.wf = true → ∀ b : Addr, b.toNat < 0x2000 →
      (memRead b (memWrite a v s)).1 = if b.toNat % 0x800 = a.toNat % 0x800 then v else (memRead b s).1)

/-- The program ROM window: a read gives the byte of the 16 KB or 32 KB image and has no effect (R77, R91), a write is
ignored (R78, decision D18). -/
def Obligations.RomWindow : Prop :=
  ∀ (s : State) (a : Addr) (v : Byte), 0x8000 ≤ a.toNat → memRead a s = (rom s a, s) ∧ memWrite a v s = s

/-- Reads that nothing answers draw one open-bus value and change nothing else, and writes that nothing takes are
ignored (R74, R75, R79, R449); the PRG-RAM window stores or is a stub (R76). Rests on the decisions D14, D15, D16, D31
and on log entry 6: the value drawn is a free value. -/
def Obligations.UndrivenAddresses : Prop :=
  ∀ (s : State) (a : Addr) (v : Byte),
    (0x4000 ≤ a.toNat → a.toNat < 0x6000 → a ≠ 0x4016 → a ≠ 0x4017 →
      memRead a s = (Config.openBus s.draws, { s with draws := s.draws + 1 })) ∧
    (0x4000 ≤ a.toNat → a.toNat < 0x6000 → a ≠ 0x4014 → a ≠ 0x4016 → memWrite a v s = s) ∧
    (0x2000 ≤ a.toNat → a.toNat < 0x4000 → a.toNat % 8 ∈ [0, 1, 3, 5, 6] →
      memRead a s = (Config.openBus s.draws, { s with draws := s.draws + 1 })) ∧
    (0x2000 ≤ a.toNat → a.toNat < 0x4000 → a.toNat % 8 = 2 → memWrite a v s = s) ∧
    (0x6000 ≤ a.toNat → a.toNat < 0x8000 → s.params.prgRamMode = .ram →
      memRead a s = (s.prgRam.read (a.toNat % 0x2000), s) ∧
      memWrite a v s = { s with prgRam := s.prgRam.write (a.toNat % 0x2000) v }) ∧
    (0x6000 ≤ a.toNat → a.toNat < 0x8000 → s.params.prgRamMode = .stub →
      memRead a s = (Config.openBus s.draws, { s with draws := s.draws + 1 }) ∧ memWrite a v s = s)

/-- What a read can change (R80): where a backing store answers, nothing; elsewhere at most the draw counter; only PPU
registers 2 and 7 and the two controller ports have a side effect, and those touch the vblank flag, the toggle, the
read buffer, v and the shift registers alone. -/
def Obligations.ReadSideEffects : Prop :=
  ∀ (s : State) (a : Addr),
    (∀ b, peek s a = some b → memRead a s = (b, s)) ∧
    (¬ (0x2000 ≤ a.toNat ∧ a.toNat < 0x4000 ∧ (a.toNat % 8 = 2 ∨ a.toNat % 8 = 7)) → a ≠ 0x4016 → a ≠ 0x4017 →
      (memRead a s).2 = { s with draws := (memRead a s).2.draws }) ∧
    (memRead a s).2 =
      { s with
        ppu := { s.ppu with
          vblank := (memRead a s).2.ppu.vblank, w := (memRead a s).2.ppu.w
          rdBuf := (memRead a s).2.ppu.rdBuf, v := (memRead a s).2.ppu.v }
        pads := { s.pads with
          pad1 := { s.pads.pad1 with shift := (memRead a s).2.pads.pad1.shift }
          pad2 := { s.pads.pad2 with shift := (memRead a s).2.pads.pad2.shift } }
        draws := (memRead a s).2.draws }

/-- The memory frame of every instruction: each byte of RAM, PRG-RAM and program ROM that no address the instruction
writes decodes to reads as before; and an instruction that writes no address of 0x2000-0x5FFF leaves OAM, the palette,
nametable RAM and the cartridge as they were (R85, R101, R103, R420). -/
def Obligations.InstructionMemoryFrame : Prop :=
  ∀ (i : Instr) (s t : State), i.wf = true → exec i s = .next t →
    (∀ a : Addr, (∀ e ∈ storedAt i s, busDecode a ≠ busDecode e) → peek t a = peek s a) ∧
    ((∀ e ∈ storedAt i s, e.toNat < 0x2000 ∨ 0x6000 ≤ e.toNat) →
      t.ppu.oam = s.ppu.oam ∧ t.ppu.palette = s.ppu.palette ∧ t.ppu.ciram = s.ppu.ciram ∧ t.cart = s.cart)

/-- The register and flag frame of every instruction, from the writer lists of R30 to R35, R42, R402 and R403: a
register or flag whose rule does not name the instruction is unchanged, and no instruction changes the total counter, the
boot phase or the parameters. That the parameters are data in State that no step changes is the model's choice, log
entry 11. -/
def Obligations.InstructionRegisterFrame : Prop :=
  ∀ (i : Instr) (s t : State), i.wf = true → exec i s = .next t →
    (i.mnemonic ∉ [.lda, .txa, .tya, .adc, .sbc, .and, .ora, .eor, .pla, .lax, .sbcU, .isb, .slo, .rla, .sre, .rra, .anc,
      .alr, .arr, .las, .xaa, .lxa] → i.mode ≠ .acc → t.a = s.a) ∧
    (i.mnemonic ∉ [.ldx, .tax, .tsx, .inx, .dex, .lax, .axs, .las, .lxa] → t.x = s.x) ∧
    (i.mnemonic ∉ [.ldy, .tay, .iny, .dey] → t.y = s.y) ∧
    (i.mnemonic ∉ [.txs, .pha, .php, .pla, .plp, .jsr, .rts, .rti, .brk, .nmi, .irq, .las, .tas] → t.sp = s.sp) ∧
    (i.mnemonic ∉ [.jmp, .jsr, .rts, .rti, .brk, .nmi, .irq, .bpl, .bmi, .bvc, .bvs, .bcc, .bcs, .bne, .beq] →
      t.pc = s.pc) ∧
    (i.mnemonic ∉ [.lda, .ldx, .ldy, .tax, .tay, .txa, .tya, .tsx, .adc, .sbc, .and, .ora, .eor, .bit, .cmp, .cpx, .cpy,
      .inc, .dec, .inx, .iny, .dex, .dey, .asl, .lsr, .rol, .ror, .pla, .plp, .rti, .lax, .sbcU, .dcp, .isb, .slo, .rla,
      .sre, .rra, .anc, .alr, .arr, .axs, .las, .xaa, .lxa] → t.p.n = s.p.n ∧ t.p.z = s.p.z) ∧
    (i.mnemonic ∉ [.adc, .sbc, .bit, .clv, .plp, .rti, .rra, .isb, .sbcU, .arr] → t.p.v = s.p.v) ∧
    (i.mnemonic ∉ [.sed, .cld, .plp, .rti] → t.p.d = s.p.d) ∧
    (i.mnemonic ∉ [.sei, .cli, .plp, .rti, .brk, .nmi, .irq] → t.p.i = s.p.i) ∧
    (i.mnemonic ∉ [.adc, .sbc, .cmp, .cpx, .cpy, .asl, .lsr, .rol, .ror, .clc, .sec, .plp, .rti, .slo, .rla, .sre, .rra,
      .dcp, .isb, .sbcU, .anc, .alr, .arr, .axs] → t.p.c = s.p.c) ∧
    (i.mnemonic ≠ .jam → t.halted = s.halted) ∧ (i.mnemonic ≠ .nmi → t.nmiPending = s.nmiPending) ∧
    (i.mnemonic ≠ .irq → t.irqPending = s.irqPending) ∧ t.totalCycles = s.totalCycles ∧ t.params = s.params ∧
    t.phase = s.phase

/-- The 16-bit reads are little-endian; one goes on to the next address modulo 65536 (R81, R82, decision D2), the other
takes its high byte from the same page (R83). -/
def Obligations.WordReadsAreLittleEndian : Prop :=
  ∀ (s : State) (a : Addr) (l h : Byte), peek s a = some l →
    (peek s (BitVec.ofNat 16 ((a.toNat + 1) % 65536)) = some h →
      (read16 a s).1.toNat = h.toNat * 256 + l.toNat ∧ (read16 a s).2 = s) ∧
    (peek s (BitVec.ofNat 16 (a.toNat / 256 * 256 + (a.toNat + 1) % 256)) = some h →
      (read16Page a s).1.toNat = h.toNat * 256 + l.toNat ∧ (read16Page a s).2 = s)

/-! ### The stack -/

/-- The stack wraps inside page 1: up to 256 pushes and as many pulls give the bytes back in reverse order and restore
SP; the slot of SP = 0x00 is 0x0100, and so is the one a pull at SP = 0xFF reads (R43 to R45). -/
def Obligations.StackWrapsInPageOne : Prop :=
  (∀ (s : State) (bytes : List Byte), bytes.length ≤ 256 → s.ram.wf = true →
    (pullN bytes.length (pushAll bytes s)).1 = bytes.reverse ∧
    (pullN bytes.length (pushAll bytes s)).2.sp = s.sp ∧
    (pushAll bytes s).sp = s.sp - BitVec.ofNat 8 bytes.length) ∧
  (∀ (s : State) (b : Byte), s.sp = 0x00 → push b s = { s with ram := s.ram.write 0x100 b, sp := 0xFF }) ∧
  (∀ s : State, s.sp = 0xFF → pull s = (s.ram.read 0x100, { s with sp := 0x00 }))

/-- A return undoes its entry, in any state that has the entry's stack: RTS after JSR, RTI after NMI and IRQ with pc
unadvanced and all six flags restored, RTI after BRK past the byte that follows it (R312, R313, R409; R409 is the spec's
own derivation). -/
def Obligations.ReturnsUndoEntries : Prop :=
  ∀ s t t' u : State, s.ram.wf = true → t'.ram = t.ram → t'.sp = t.sp →
    (∀ a : Addr, exec (.jsr a) s = .next t → exec .rts t' = .next u → u.pc = s.pc ∧ u.sp = s.sp) ∧
    (∀ i : Instr, i = .nmi ∨ i = .irq → exec i s = .next t → exec .rti t' = .next u →
      u.pc = s.pc ∧ u.sp = s.sp ∧ u.p = s.p) ∧
    (exec .brk s = .next t → exec .rti t' = .next u → u.pc = s.pc + 1 ∧ u.sp = s.sp ∧ u.p = s.p)

/-- The status byte: packed with bit 5 set and bit 4 the break bit, unpacked with both ignored (R37, R38). -/
def Obligations.StatusByteLayout : Prop :=
  (∀ (p : Flags) (b : Bool), p.pack b = packed p b ∧ Flags.unpack (p.pack b) = p) ∧
  (∀ m : Byte, Flags.unpack m =
    { n := m.getLsbD 7, v := m.getLsbD 6, d := m.getLsbD 3, i := m.getLsbD 2, z := m.getLsbD 1, c := m.getLsbD 0 })

/-! ### Instructions -/

/-- TAX, TAY, TXA, TYA, TSX copy a register and set N and Z; TXS copies X to SP and sets no flag (R226 to R231). -/
def Obligations.TransfersCopyRegisters : Prop :=
  Implied 0xAA .tax (fun s => { s with x := s.a, p := nz s.p s.a, cycles := s.cycles + 2 }) ∧
  Implied 0xA8 .tay (fun s => { s with y := s.a, p := nz s.p s.a, cycles := s.cycles + 2 }) ∧
  Implied 0x8A .txa (fun s => { s with a := s.x, p := nz s.p s.x, cycles := s.cycles + 2 }) ∧
  Implied 0x98 .tya (fun s => { s with a := s.y, p := nz s.p s.y, cycles := s.cycles + 2 }) ∧
  Implied 0xBA .tsx (fun s => { s with x := s.sp, p := nz s.p s.sp, cycles := s.cycles + 2 }) ∧
  Implied 0x9A .txs (fun s => { s with sp := s.x, cycles := s.cycles + 2 })

/-- LDA, LDX, LDY and *LAX, every form (R220 to R222, R351). -/
def Obligations.LoadsSetRegisterAndFlags : Prop :=
  Reads ldaLine (fun _ => .lda) (fun v s => { s with a := v, p := nz s.p v }) ∧
  Reads ldxLine (fun _ => .ldx) (fun v s => { s with x := v, p := nz s.p v }) ∧
  Reads ldyLine (fun _ => .ldy) (fun v s => { s with y := v, p := nz s.p v }) ∧
  Reads laxLine (fun _ => .lax) (fun v s => { s with a := v, x := v, p := nz s.p v })

/-- STA, STX, STY and *SAX, every form: one write at the effective address, no read, no flag (R223 to R225, R352). That STA
reads nothing is decision D6. -/
def Obligations.StoresWriteOneByte : Prop :=
  Stores staLine .sta (·.a) ∧ Stores stxLine .stx (·.x) ∧ Stores styLine .sty (·.y) ∧
  Stores saxLine .sax (fun s => s.a &&& s.x)

/-- ADC, SBC and *SBC, every form, as sums and differences of integers: carry, borrow, signed overflow, N and Z,
whatever D holds (R250, R252, R253, R353). -/
def Obligations.AddAndSubtract : Prop :=
  Reads adcLine (fun _ => .adc) (fun m s => addTo s m) ∧
  Reads sbcLine (fun _ => .sbc) (fun m s => subFrom s m) ∧
  Immediate 0xEB .sbcU (fun m s => { subFrom s m with cycles := s.cycles + 2 })

/-- AND, ORA, EOR and BIT, every form (R254 to R257). -/
def Obligations.LogicAndBit : Prop :=
  Reads andLine (fun _ => .and) (fun m s => { s with a := s.a &&& m, p := nz s.p (s.a &&& m) }) ∧
  Reads oraLine (fun _ => .ora) (fun m s => { s with a := s.a ||| m, p := nz s.p (s.a ||| m) }) ∧
  Reads eorLine (fun _ => .eor) (fun m s => { s with a := s.a ^^^ m, p := nz s.p (s.a ^^^ m) }) ∧
  Reads bitLine (fun _ => .bit)
    (fun m s => { s with p := { s.p with z := decide (s.a &&& m = 0), n := m.getLsbD 7, v := m.getLsbD 6 } })

/-- CMP, CPX and CPY, every form (R251, R258 to R260). -/
def Obligations.ComparesSetFlagsOnly : Prop :=
  Reads cmpLine (fun _ => .cmp) (fun m s => { s with p := compared s.p s.a m }) ∧
  Reads cpxLine (fun _ => .cpx) (fun m s => { s with p := compared s.p s.x m }) ∧
  Reads cpyLine (fun _ => .cpy) (fun m s => { s with p := compared s.p s.y m })

/-- INC and DEC, every form, and INX, INY, DEX, DEY: modulo 256, N and Z alone (R261 to R266). -/
def Obligations.IncrementAndDecrement : Prop :=
  Modifies incLine .inc (fun _ v => BitVec.ofNat 8 ((v.toNat + 1) % 256))
    (fun v s => { s with p := nz s.p (BitVec.ofNat 8 ((v.toNat + 1) % 256)) }) ∧
  Modifies decLine .dec (fun _ v => BitVec.ofNat 8 ((v.toNat + 255) % 256))
    (fun v s => { s with p := nz s.p (BitVec.ofNat 8 ((v.toNat + 255) % 256)) }) ∧
  Implied 0xE8 .inx (fun s => { s with x := s.x + 1, p := nz s.p (s.x + 1), cycles := s.cycles + 2 }) ∧
  Implied 0xC8 .iny (fun s => { s with y := s.y + 1, p := nz s.p (s.y + 1), cycles := s.cycles + 2 }) ∧
  Implied 0xCA .dex (fun s => { s with x := s.x - 1, p := nz s.p (s.x - 1), cycles := s.cycles + 2 }) ∧
  Implied 0x88 .dey (fun s => { s with y := s.y - 1, p := nz s.p (s.y - 1), cycles := s.cycles + 2 })

/-- ASL, LSR, ROL and ROR, in the accumulator and in memory: the result, C the bit shifted out, N and Z (R290 to
R294). -/
def Obligations.ShiftsAndRotates : Prop :=
  Modifies aslLine .asl (fun _ v => shl1 v)
    (fun v s => { s with p := { nz s.p (shl1 v) with c := v.getLsbD 7 } }) ∧
  Modifies lsrLine .lsr (fun _ v => shr1 v)
    (fun v s => { s with p := { nz s.p (shr1 v) with c := v.getLsbD 0 } }) ∧
  Modifies rolLine .rol rol1
    (fun v s => { s with p := { nz s.p (rol1 s.p.c v) with c := v.getLsbD 7 } }) ∧
  Modifies rorLine .ror ror1
    (fun v s => { s with p := { nz s.p (ror1 s.p.c v) with c := v.getLsbD 0 } })

/-- PHA and PHP write one byte of page 1 and decrement SP, PHP with the break bit; PLA and PLP increment SP and read one,
PLA setting N and Z, PLP all six flags (R300 to R303). The places of the flags in the status byte are the spec's general
knowledge (R37, R38). -/
def Obligations.PushesAndPulls : Prop :=
  Implied 0x48 .pha (fun s => { s with
    ram := s.ram.write (stackCell s.sp) s.a, sp := s.sp - 1, cycles := s.cycles + 3 }) ∧
  Implied 0x08 .php (fun s => { s with
    ram := s.ram.write (stackCell s.sp) (packed s.p true), sp := s.sp - 1, cycles := s.cycles + 3 }) ∧
  Implied 0x68 .pla (fun s => { s with
    a := s.ram.read (stackCell (s.sp + 1)), sp := s.sp + 1, p := nz s.p (s.ram.read (stackCell (s.sp + 1)))
    cycles := s.cycles + 4 }) ∧
  Implied 0x28 .plp (fun s => { s with
    p := Flags.unpack (s.ram.read (stackCell (s.sp + 1))), sp := s.sp + 1, cycles := s.cycles + 4 })

/-- JMP (both forms, the indirect one with its page bug), JSR and RTS (R310 to R312). -/
def Obligations.JumpsAndReturns : Prop :=
  (∀ (a : Addr) (s : State), decode [0x4C, lo a, hi a] = .ok (.jmp (.abs a), []) ∧
    exec (.jmp (.abs a)) s = .next { s with pc := a, cycles := s.cycles + 3 }) ∧
  (∀ (ptr : Addr) (s : State), decode [0x6C, lo ptr, hi ptr] = .ok (.jmp (.ind ptr), []) ∧
    exec (.jmp (.ind ptr)) s =
      .next (let l := memRead ptr s
        let h := memRead (hi ptr ++ (lo ptr + 1)) l.2
        { h.2 with pc := w16 h.1 l.1, cycles := s.cycles + 5 })) ∧
  (∀ (a : Addr) (s : State), decode [0x20, lo a, hi a] = .ok (.jsr a, []) ∧
    exec (.jsr a) s = .next { s with
      ram := (s.ram.write (stackCell s.sp) (hi (s.pc - 1))).write (stackCell (s.sp - 1)) (lo (s.pc - 1))
      sp := s.sp - 2, pc := a, cycles := s.cycles + 6 }) ∧
  Implied 0x60 .rts (fun s => { s with
    pc := w16 (s.ram.read (stackCell (s.sp + 2))) (s.ram.read (stackCell (s.sp + 1))) + 1
    sp := s.sp + 2, cycles := s.cycles + 6 })

/-- BRK: the return address is pc + 1, the pushed status byte has the break bit, I is set, pc comes from 0xFFFE (R314);
RTI: all six flags pulled, then pc (R313). The spec marks BRK's vector, push order and return address, and the places of
the flags in the status byte (R37, R38), as its general knowledge. -/
def Obligations.BreakAndReturnFromInterrupt : Prop :=
  Implied 0x00 .brk (fun s => entered 0xFFFE (s.pc + 1) true { s with cycles := s.cycles + 7 }) ∧
  Implied 0x40 .rti (fun s => { s with
    p := Flags.unpack (s.ram.read (stackCell (s.sp + 1)))
    pc := w16 (s.ram.read (stackCell (s.sp + 3))) (s.ram.read (stackCell (s.sp + 2)))
    sp := s.sp + 3, cycles := s.cycles + 6 })

/-- The NMI and IRQ entries clear their line, push pc and the status byte without the break bit, set I, and load pc from
0xFFFA and 0xFFFE (R405 to R407; setting I is decision D9). No byte selects them (R160). -/
def Obligations.HardwareInterruptEntries : Prop :=
  (∀ s : State, exec .nmi s = .next (entered 0xFFFA s.pc false { s with nmiPending := false, cycles := s.cycles + 7 })) ∧
  (∀ s : State, exec .irq s = .next (entered 0xFFFE s.pc false { s with irqPending := false, cycles := s.cycles + 7 }))

/-- The eight branches: the flag each tests, the target, and 2, 3 or 4 cycles (R155, R200, R315 to R323). -/
def Obligations.BranchesTestOneFlag : Prop :=
  Immediate 0x10 .bpl (fun d s => branched (s.p.n == false) d s) ∧
  Immediate 0x30 .bmi (fun d s => branched (s.p.n == true) d s) ∧
  Immediate 0x50 .bvc (fun d s => branched (s.p.v == false) d s) ∧
  Immediate 0x70 .bvs (fun d s => branched (s.p.v == true) d s) ∧
  Immediate 0x90 .bcc (fun d s => branched (s.p.c == false) d s) ∧
  Immediate 0xB0 .bcs (fun d s => branched (s.p.c == true) d s) ∧
  Immediate 0xD0 .bne (fun d s => branched (s.p.z == false) d s) ∧
  Immediate 0xF0 .beq (fun d s => branched (s.p.z == true) d s)

/-- The flag instructions write one flag each, and NOP writes nothing (R340 to R347). -/
def Obligations.FlagInstructions : Prop :=
  Implied 0x18 .clc (fun s => { s with p := { s.p with c := false }, cycles := s.cycles + 2 }) ∧
  Implied 0x38 .sec (fun s => { s with p := { s.p with c := true }, cycles := s.cycles + 2 }) ∧
  Implied 0x58 .cli (fun s => { s with p := { s.p with i := false }, cycles := s.cycles + 2 }) ∧
  Implied 0x78 .sei (fun s => { s with p := { s.p with i := true }, cycles := s.cycles + 2 }) ∧
  Implied 0xD8 .cld (fun s => { s with p := { s.p with d := false }, cycles := s.cycles + 2 }) ∧
  Implied 0xF8 .sed (fun s => { s with p := { s.p with d := true }, cycles := s.cycles + 2 }) ∧
  Implied 0xB8 .clv (fun s => { s with p := { s.p with v := false }, cycles := s.cycles + 2 }) ∧
  Implied 0xEA .nop (fun s => { s with cycles := s.cycles + 2 })

/-- *SLO, *RLA, *SRE, *RRA, *DCP and *ISB, every form: the memory byte is modified, then combined with A (R354 to
R359). -/
def Obligations.CombinedModifyAndAccumulate : Prop :=
  Modifies sloLine .slo (fun _ v => shl1 v)
    (fun v s => { s with a := s.a ||| shl1 v, p := { nz s.p (s.a ||| shl1 v) with c := v.getLsbD 7 } }) ∧
  Modifies rlaLine .rla rol1
    (fun v s => { s with
      a := s.a &&& rol1 s.p.c v, p := { nz s.p (s.a &&& rol1 s.p.c v) with c := v.getLsbD 7 } }) ∧
  Modifies sreLine .sre (fun _ v => shr1 v)
    (fun v s => { s with a := s.a ^^^ shr1 v, p := { nz s.p (s.a ^^^ shr1 v) with c := v.getLsbD 0 } }) ∧
  Modifies rraLine .rra ror1
    (fun v s => addTo { s with p := { s.p with c := v.getLsbD 0 } } (ror1 s.p.c v)) ∧
  Modifies dcpLine .dcp (fun _ v => v - 1) (fun v s => { s with p := compared s.p s.a (v - 1) }) ∧
  Modifies isbLine .isb (fun _ v => v + 1) (fun v s => subFrom s (v + 1))

/-- The undocumented *NOPs: nothing, or one read of the operand with its side effects, the value discarded (R360; the
read is decision D7). -/
def Obligations.UndocumentedNops : Prop :=
  (∀ op ∈ nopImplied, Implied op (.nopU op none) (fun s => { s with cycles := s.cycles + 2 })) ∧
  Reads nopLine (fun op o => .nopU op (some o)) (fun _ s => s)

/-- ANC, ALR, ARR, AXS and LAS (R361 to R365). -/
def Obligations.ImmediateCombinations : Prop :=
  (∀ op ∈ [(0x0B : Byte), 0x2B], Immediate op (.anc op) (fun b s => { s with
    a := s.a &&& b, p := { nz s.p (s.a &&& b) with c := (s.a &&& b).getLsbD 7 }, cycles := s.cycles + 2 })) ∧
  Immediate 0x4B .alr (fun b s => { s with
    a := shr1 (s.a &&& b), p := { nz s.p (shr1 (s.a &&& b)) with c := (s.a &&& b).getLsbD 0 }
    cycles := s.cycles + 2 }) ∧
  Immediate 0x6B .arr (fun b s =>
    let r := ror1 s.p.c (s.a &&& b)
    { s with
      a := r, p := { nz s.p r with c := r.getLsbD 6, v := r.getLsbD 6 ^^ r.getLsbD 5 }, cycles := s.cycles + 2 }) ∧
  Immediate 0xCB .axs (fun b s => { s with
    x := (s.a &&& s.x) - b, p := compared s.p (s.a &&& s.x) b, cycles := s.cycles + 2 }) ∧
  (∀ (a : Addr) (s : State), decode [0xBB, lo a, hi a] = .ok (.las a, []) ∧
    exec (.las a) s =
      .next (let r := readOf (.aby a) s
        { r.2 with
          a := r.1 &&& s.sp, x := r.1 &&& s.sp, sp := r.1 &&& s.sp, p := nz s.p (r.1 &&& s.sp)
          cycles := s.cycles + 4 + (if crosses (.aby a) s then 1 else 0) }))

/-- The unstable opcodes under UNSTABLE_MODE = nmos (R367 to R372; the mode and its formulas are decision D4), for every
value of the free constant UNSTABLE_MAGIC (log entry 8); under refuse each is refused (R366). -/
def Obligations.UnstableOpcodes : Prop :=
  (∀ (b : Byte) (a : Addr), decode [0x8B, b] = .ok (.xaa b, []) ∧ decode [0xAB, b] = .ok (.lxa b, []) ∧
    decode [0x9E, lo a, hi a] = .ok (.shx a, []) ∧ decode [0x9C, lo a, hi a] = .ok (.shy a, []) ∧
    decode [0x9B, lo a, hi a] = .ok (.tas a, [])) ∧
  (∀ s : State, s.params.unstableMode = .nmos →
    (∀ b : Byte, exec (.xaa b) s =
      .next (let r := (s.a ||| Config.unstableMagic) &&& s.x &&& b
        { s with a := r, p := nz s.p r, cycles := s.cycles + 2 })) ∧
    (∀ b : Byte, exec (.lxa b) s =
      .next (let r := (s.a ||| Config.unstableMagic) &&& b
        { s with a := r, x := r, p := nz s.p r, cycles := s.cycles + 2 })) ∧
    (∀ e ∈ shaLine, ∀ o : Operand, o.mode = e.mode → decode (e.op :: o.bytes) = .ok (.sha o, []) ∧
      exec (.sha o) s = .next (storedUnderHigh o (s.a &&& s.x) e.base s)) ∧
    (∀ a : Addr, exec (.shx a) s = .next (storedUnderHigh (.aby a) s.x 5 s)) ∧
    (∀ a : Addr, exec (.shy a) s = .next (storedUnderHigh (.abx a) s.y 5 s)) ∧
    (∀ a : Addr, exec (.tas a) s =
      .next (storedUnderHigh (.aby a) (s.a &&& s.x) 5 { s with sp := s.a &&& s.x }))) ∧
  (∀ s : State, s.params.unstableMode = .refuse →
    (∀ b : Byte, exec (.xaa b) s = .refused .unstableOpcode ∧ exec (.lxa b) s = .refused .unstableOpcode) ∧
    (∀ o : Operand, exec (.sha o) s = .refused .unstableOpcode) ∧
    (∀ a : Addr, exec (.shx a) s = .refused .unstableOpcode ∧ exec (.shy a) s = .refused .unstableOpcode ∧
      exec (.tas a) s = .refused .unstableOpcode))

/-- A JAM opcode halts the CPU for one cycle, and a halted CPU stays halted for any number of steps: no register, flag or
memory changes, no interrupt line is lost, and the PPU goes on (R373, R415; decisions D5 and D41). -/
def Obligations.JamHaltsForGood : Prop :=
  (∀ op ∈ jamLine, Implied op (.jam op) (fun s => { s with halted := true, cycles := s.cycles + 1 })) ∧
  (∀ (n : Nat) (s : State), s.phase = .running → s.halted = true → s.ppu.dot < 341 → s.ppu.scanline < 262 →
    ∃ t : State, Host.Core.run core n s = .next t ∧
      t = { s with ppu := t.ppu, nmiPending := t.nmiPending, cycles := t.cycles, totalCycles := s.totalCycles + n } ∧
      (s.nmiPending = true → t.nmiPending = true) ∧ dotPos t.ppu = (dotPos s.ppu + 3 * n) % frameDots)

/-! ### The PPU as the CPU sees it -/

/-- Writes of PPU registers 1, 3 and 4 at every mirror: PPUMASK, OAMADDR, OAMDATA (R440, R442, R443). -/
def Obligations.PpuRegisterWrites : Prop :=
  ∀ (s : State) (a : Addr) (d : Byte), 0x2000 ≤ a.toNat → a.toNat < 0x4000 →
    (a.toNat % 8 = 1 → memWrite a d s = { s with ppu := { s.ppu with mask := d } }) ∧
    (a.toNat % 8 = 3 → memWrite a d s = { s with ppu := { s.ppu with oamAddr := d } }) ∧
    (a.toNat % 8 = 4 → memWrite a d s = { s with ppu := { s.ppu with
      oam := s.ppu.oam.write s.ppu.oamAddr.toNat d, oamAddr := s.ppu.oamAddr + 1 } })

/-- The writes that build the VRAM address: PPUCTRL with the base nametable bits of t; PPUSCROLL and PPUADDR, which share
the toggle: X then Y into the fields of t and fine X; the high six bits and then the low byte, which commits t to v
(R439, R445, R446). The bits of t are marked in these rules as the spec's general knowledge, and the shared toggle is
decision D33. -/
def Obligations.ScrollAndAddressWrites : Prop :=
  ∀ (s : State) (a : Addr) (d : Byte), 0x2000 ≤ a.toNat → a.toNat < 0x4000 →
    (a.toNat % 8 = 0 → memWrite a d s = { s with ppu := { s.ppu with
      ctrl := d, t := s.ppu.t.extractLsb' 12 3 ++ d.extractLsb' 0 2 ++ s.ppu.t.extractLsb' 0 10 } }) ∧
    (a.toNat % 8 = 5 → s.ppu.w = false → memWrite a d s = { s with ppu := { s.ppu with
      t := s.ppu.t.extractLsb' 5 10 ++ d.extractLsb' 3 5, x := d.extractLsb' 0 3, w := true } }) ∧
    (a.toNat % 8 = 5 → s.ppu.w = true → memWrite a d s = { s with ppu := { s.ppu with
      t := d.extractLsb' 0 3 ++ s.ppu.t.extractLsb' 10 2 ++ d.extractLsb' 3 5 ++ s.ppu.t.extractLsb' 0 5
      w := false } }) ∧
    (a.toNat % 8 = 6 → s.ppu.w = false → memWrite a d s = { s with ppu := { s.ppu with
      t := (0 : BitVec 1) ++ d.extractLsb' 0 6 ++ s.ppu.t.extractLsb' 0 8, w := true } }) ∧
    (a.toNat % 8 = 6 → s.ppu.w = true → memWrite a d s = { s with ppu := { s.ppu with
      t := s.ppu.t.extractLsb' 8 7 ++ d, v := s.ppu.t.extractLsb' 8 7 ++ d, w := false } })

/-- PPUSTATUS, OAMDATA and PPUDATA at every mirror: the status byte over five open bits, vblank and the toggle cleared;
the OAM byte at the cursor, which stays; the buffered read and the write through v, each stepping v by 1 or 32 modulo
0x8000 (R441, R444, R447, R448; decisions D30, D33, D34, D50, D51). -/
def Obligations.PpuDataRegisters : Prop :=
  ∀ (s : State) (a : Addr) (d : Byte), 0x2000 ≤ a.toNat → a.toNat < 0x4000 →
    (a.toNat % 8 = 2 → memRead a s =
      (BitVec.ofNat 8 (128 * s.ppu.vblank.toNat + 64 * s.ppu.s0hit.toNat + 32 * s.ppu.overflow.toNat +
        (Config.openBus s.draws).toNat % 32),
       { s with ppu := { s.ppu with vblank := false, w := false }, draws := s.draws + 1 })) ∧
    (a.toNat % 8 = 4 → memRead a s = (s.ppu.oam.read s.ppu.oamAddr.toNat, s)) ∧
    (a.toNat % 8 = 7 → memRead a s =
      (s.ppu.rdBuf, { s with ppu := { s.ppu with
        rdBuf := ppuRead s.cart s.ppu (BitVec.ofNat 14 s.ppu.v.toNat)
        v := BitVec.ofNat 15 (s.ppu.v.toNat + (if s.ppu.ctrl.getLsbD 2 then 32 else 1)) } })) ∧
    (a.toNat % 8 = 7 → memWrite a d s =
      (let u := ppuWrite (BitVec.ofNat 14 s.ppu.v.toNat) d s
       { u with ppu := { u.ppu with
        v := BitVec.ofNat 15 (s.ppu.v.toNat + (if s.ppu.ctrl.getLsbD 2 then 32 else 1)) } }))

/-- The PPU space: pattern memory, the nametable banks of each mirroring, their mirror at 0x3000, the palette and its
alias (R95 to R98), and one write there: what its target then reads, and that every other address reads as before; a
palette read has bits 7-6 zero in every state (R98, R99; decisions D32, D44, D49). -/
def Obligations.PpuSpaceMirroring : Prop :=
  (∀ (m : Mirroring) (a : PpuAddr), ppuDecode m a =
    if a.toNat < 0x2000 then .pattern a.toNat
    else if a.toNat < 0x3F00 then
      .nametable ((match m with
        | .vertical => [0, 1, 0, 1]
        | .horizontal => [0, 0, 1, 1]
        | .fourScreen => [0, 1, 2, 3]).getD (a.toNat / 1024 % 4) 0 * 1024 + a.toNat % 1024)
    else .palette (if a.toNat % 32 ∈ [0x10, 0x14, 0x18, 0x1C] then a.toNat % 32 - 16 else a.toNat % 32)) ∧
  (∀ (s : State) (a b : PpuAddr) (d : Byte), s.ppu.ciram.wf = true → s.ppu.palette.wf = true → s.cart.chr.wf = true →
    ppuRead (ppuWrite a d s).cart (ppuWrite a d s).ppu b =
      if ppuDecode s.cart.mirroring b = ppuDecode s.cart.mirroring a then
        (match ppuDecode s.cart.mirroring a with
         | .pattern _ => if s.cart.chrPages = 0 then d else ppuRead s.cart s.ppu b
         | .nametable _ => d
         | .palette _ => BitVec.ofNat 8 (d.toNat % 64))
      else ppuRead s.cart s.ppu b) ∧
  (∀ (cart : Cartridge) (ppu : Ppu) (a : PpuAddr), 0x3F00 ≤ a.toNat → (ppuRead cart ppu a).toNat < 64)

/-- OAM-DMA from any page: 256 bus reads in order, each with its side effects and each byte stored to OAM from index 0, then
514 cycles charged; the OAM cursor is kept. From a page that memory answers, nothing but OAM and the cycles changes, and
OAM is that page; from a page of undriven addresses OAM is 256 open-bus values in order of drawing (R101, R102, R79;
decisions D13 and D14, log entry 6). -/
def Obligations.OamDmaCopiesPage : Prop :=
  ∀ (s : State) (page : Byte),
    memWrite 0x4014 page s = { dmaBytes page 256 s with cycles := s.cycles + 514 } ∧
    (memWrite 0x4014 page s).ppu.oamAddr = s.ppu.oamAddr ∧
    (s.ppu.oam.wf = true →
      (∀ i < 256, (peek s (BitVec.ofNat 16 (page.toNat * 256 + i))).isSome = true) →
        memWrite 0x4014 page s = { s with
          ppu := { s.ppu with oam := (memWrite 0x4014 page s).ppu.oam }, cycles := s.cycles + 514 } ∧
        ∀ i < 256, peek s (BitVec.ofNat 16 (page.toNat * 256 + i)) = some ((memWrite 0x4014 page s).ppu.oam.read i)) ∧
    (s.ppu.oam.wf = true →
      ((0x41 ≤ page.toNat ∧ page.toNat ≤ 0x5F) ∨
        (0x60 ≤ page.toNat ∧ page.toNat ≤ 0x7F ∧ s.params.prgRamMode = .stub)) →
        memWrite 0x4014 page s = { s with
          ppu := { s.ppu with oam := (memWrite 0x4014 page s).ppu.oam }, cycles := s.cycles + 514
          draws := s.draws + 256 } ∧
        ∀ i < 256, (memWrite 0x4014 page s).ppu.oam.read i = Config.openBus (s.draws + i))

/-- The controllers: with strobe high every read gives the first button; after strobe high and low the reads give the
eight buttons in order and then 1 (R471, R472; decision D35). Only the host writes the button bytes (R473). -/
def Obligations.ControllersShiftOutButtons : Prop :=
  (∀ (s : State) (high low : Byte) (n : Nat), high.getLsbD 0 = true → low.getLsbD 0 = false →
    (memRead 0x4016 (afterReads 0x4016 n (memWrite 0x4016 high s))).1.getLsbD 0 = s.pads.pad1.buttons.getLsbD 0 ∧
    (memRead 0x4017 (afterReads 0x4017 n (memWrite 0x4016 high s))).1.getLsbD 0 = s.pads.pad2.buttons.getLsbD 0 ∧
    (memRead 0x4016 (afterReads 0x4016 n (memWrite 0x4016 low (memWrite 0x4016 high s)))).1.getLsbD 0 =
      (if n < 8 then s.pads.pad1.buttons.getLsbD n else true) ∧
    (memRead 0x4017 (afterReads 0x4017 n (memWrite 0x4016 low (memWrite 0x4016 high s)))).1.getLsbD 0 =
      (if n < 8 then s.pads.pad2.buttons.getLsbD n else true)) ∧
  (∀ s t : State, step s = .next t →
    t.pads.pad1.buttons = s.pads.pad1.buttons ∧ t.pads.pad2.buttons = s.pads.pad2.buttons)

/-! ### Rendering -/

/-- The three updates of the VRAM address, field by field (R427, R458). The spec marks their bodies as its general
knowledge (93_implementation_defined.md G5). -/
def Obligations.VramAddressUpdates : Prop :=
  ∀ v t : VramReg,
    (coarseX (incCoarseX v) = (coarseX v + 1) % 32 ∧
      nametableX (incCoarseX v) = (if coarseX v = 31 then 1 - nametableX v else nametableX v) ∧
      coarseY (incCoarseX v) = coarseY v ∧ nametableY (incCoarseX v) = nametableY v ∧
      fineY (incCoarseX v) = fineY v) ∧
    (fineY (incY v) = (fineY v + 1) % 8 ∧
      coarseY (incY v) = (if fineY v < 7 then coarseY v else if coarseY v = 29 ∨ coarseY v = 31 then 0 else coarseY v + 1) ∧
      nametableY (incY v) = (if fineY v = 7 ∧ coarseY v = 29 then 1 - nametableY v else nametableY v) ∧
      coarseX (incY v) = coarseX v ∧ nametableX (incY v) = nametableX v) ∧
    (coarseX (copyX v t) = coarseX t ∧ nametableX (copyX v t) = nametableX t ∧ coarseY (copyX v t) = coarseY v ∧
      nametableY (copyX v t) = nametableY v ∧ fineY (copyX v t) = fineY v)

/-- The background of a line in tile coordinates: column sx shows the tile (sx + x) / 8 columns right of v, in the
nametable beyond when that passes column 31, at its pixel (sx + x) mod 8; hidden, or under the left-column mask, the
pixel is 0 (R426, R454, R455). -/
def Obligations.BackgroundPixels : Prop :=
  ∀ (cart : Cartridge) (ppu : Ppu) (sx : Nat), sx < 256 →
    (ppu.mask.getLsbD 3 = true → (ppu.mask.getLsbD 1 = true ∨ 8 ≤ sx) →
      let col := coarseX ppu.v + (sx + ppu.x.toNat) / 8
      let table := 2 * nametableY ppu.v + (if col < 32 then nametableX ppu.v else 1 - nametableX ppu.v)
      (backgroundRow cart ppu)[sx]? =
        some (tilePixelAt cart ppu table (col % 32) (coarseY ppu.v) (fineY ppu.v) ((sx + ppu.x.toNat) % 8))) ∧
    (ppu.mask.getLsbD 3 = true → ppu.mask.getLsbD 1 = false → sx < 8 →
      ((backgroundRow cart ppu)[sx]?.map Prod.fst) = some 0) ∧
    (ppu.mask.getLsbD 3 = false → (backgroundRow cart ppu)[sx]? = some (0, 0))

/-- The sprites of a line: at most eight, in OAM order, sprite n among them exactly when it shows on the line and fewer
than eight before it do (R428; decisions D29 and D52). -/
def Obligations.FirstEightSprites : Prop :=
  ∀ (ppu : Ppu) (sl : Nat),
    (spritesOn ppu sl).length ≤ 8 ∧ (spritesOn ppu sl).Pairwise (fun a b => a.1 < b.1) ∧
    ∀ n row, (n, row) ∈ spritesOn ppu sl ↔
      spriteOn ppu sl n = true ∧ row = sl - ((ppu.oam.read (4 * n)).toNat + 1) ∧
      ((List.range n).filter (spriteOn ppu sl)).length < 8

/-- The sprite pixels of a line: 256 columns; none while sprites are hidden; otherwise each column has the opaque pixel of
the lowest of the first eight sprites on the line that puts one there, with its two bits from the pattern row of R429
under both flips, its palette, its priority bit and whether it is of entry 0; and none if no such sprite puts one there
(R428, R429, R454). The formulas are marked as the spec's general knowledge (G5), and the order is decisions D29, D52. -/
def Obligations.SpritePixels : Prop :=
  ∀ (cart : Cartridge) (ppu : Ppu) (sl : Nat), (spriteRow cart ppu sl).length = 256 ∧
    ∀ sx < 256,
      (ppu.mask.getLsbD 4 = false → (spriteRow cart ppu sl)[sx]? = some none) ∧
      (ppu.mask.getLsbD 4 = true →
        ((spriteRow cart ppu sl)[sx]? = some none ↔
          ∀ n < 64, spriteShown ppu sl n = true → spritePixelAt cart ppu sl n sx = none) ∧
        ∀ p : SpritePixel, (spriteRow cart ppu sl)[sx]? = some (some p) ↔
          ∃ n < 64, spriteShown ppu sl n = true ∧ spritePixelAt cart ppu sl n sx = some p ∧
            ∀ m < n, spriteShown ppu sl m = true → spritePixelAt cart ppu sl m sx = none)

/-- The pixel priority table of R430, as palette-table indices. -/
def Obligations.CompositePriority : Prop :=
  ∀ (b bp p sp : BitVec 2) (behind isZero : Bool),
    composite (0, bp) none = 0 ∧
    (composite (0, bp) (some ⟨p, sp, behind, isZero⟩)).toNat = 16 + 4 * sp.toNat + p.toNat ∧
    (b ≠ 0 → (composite (b, bp) none).toNat = 4 * bp.toNat + b.toNat ∧
      (composite (b, bp) (some ⟨p, sp, false, isZero⟩)).toNat = 16 + 4 * sp.toNat + p.toNat ∧
      (composite (b, bp) (some ⟨p, sp, true, isZero⟩)).toNat = 4 * bp.toNat + b.toNat)

/-- Every visible line, shown in the frame or not: with rendering off v and the sprite-zero hit stay and each pixel is the
backdrop; with rendering on each pixel is the colour the PPU reads at 0x3F00 plus the composite index of its background
and sprite pixels, the sprite-zero hit is set when some column sets it and is kept otherwise, and v takes IncY and CopyX.
The line's pixels go to its row of the frame, and every other row keeps its own; with FB_HEIGHT = 224 the first and last
eight lines have no row, and the rest of the effect is the same. Nothing of the PPU but v, the sprite-zero hit and the
frame changes. The frame's bytes are the three of NES_PALETTE for each pixel, row by row, and 0 where no line was written
(R425, R430 to R433, R456, R457; decisions D24, D27, D28, D36 to D38). A pixel is the colour's 6-bit number, looked up
in the free constant NES_PALETTE: log entry 9. -/
def Obligations.LineRendering : Prop :=
  ∀ (params : Params) (cart : Cartridge) (ppu : Ppu) (sl : Nat), sl < 240 →
    (rendering ppu = false →
      (renderLine params cart sl ppu).v = ppu.v ∧ (renderLine params cart sl ppu).s0hit = ppu.s0hit) ∧
    (rendering ppu = true →
      ((renderLine params cart sl ppu).s0hit = true ↔ ppu.s0hit = true ∨
        ∃ k bg sp, k < 256 ∧ (backgroundRow cart ppu)[k]? = some bg ∧ (spriteRow cart ppu sl)[k]? = some (some sp) ∧
          sp.isZero = true ∧ (params.s0NeedsBg = true → bg.1 ≠ 0 ∧ k ≠ 255)) ∧
      (renderLine params cart sl ppu).v = copyX (incY (backgroundV ppu)) ppu.t) ∧
    (∀ row sx, sx < 256 → shownIn params.fbHeight sl row →
      (rendering ppu = false →
        framePixel (renderLine params cart sl ppu) row sx = some ((ppu.palette.read 0).setWidth 6)) ∧
      (rendering ppu = true → ∃ bg sp,
        (backgroundRow cart ppu)[sx]? = some bg ∧ (spriteRow cart ppu sl)[sx]? = some sp ∧
        framePixel (renderLine params cart sl ppu) row sx =
          some ((ppuRead cart ppu (BitVec.ofNat 14 (0x3F00 + (composite bg sp).toNat))).setWidth 6))) ∧
    (∀ row sx, ¬ shownIn params.fbHeight sl row →
      framePixel (renderLine params cart sl ppu) row sx = framePixel ppu row sx) ∧
    renderLine params cart sl ppu = { ppu with
      v := (renderLine params cart sl ppu).v, s0hit := (renderLine params cart sl ppu).s0hit
      fb := (renderLine params cart sl ppu).fb } ∧
    (∀ row sx, sx < 256 →
      let k := 3 * (256 * row + sx)
      (frameByte ppu k, frameByte ppu (k + 1), frameByte ppu (k + 2)) =
        (match framePixel ppu row sx with
         | some colour => Config.nesPalette colour
         | none => (0, 0, 0)))

/-! ### The session -/

/-- `reset()` and `start()`: what they set, and that nothing else changes; a reset between steps is the same (the host's
inputs are log entry 13), with pc from the vector in trace-validation mode too (log entry 19). The boot of an accepted
image from any draws (log entry 12) under any parameters (log entry 11): the session invariant holds, the registers are
those of reset, every RAM, CHR-RAM among them, reads as drawn, the palette in six bits, and the rest of the cartridge is
the image's (R92, R500 to R503, R505; decisions D21, D22, D43, D48). -/
def Obligations.ResetAndBoot : Prop :=
  (∀ s : State, start (cpuReset s) = { s with
      a := 0, x := 0, y := 0, sp := 0xFD, totalCycles := 7, halted := false, nmiPending := false, irqPending := false
      p := { n := false, v := false, d := false, i := true, z := false, c := false }
      pc := w16 (rom s 0xFFFD) (rom s 0xFFFC), phase := .running } ∧
    applyHost .reset s = start (cpuReset s)) ∧
  (∀ (params : Params) (image : List Byte) (d : PowerOnDraws) (cart : Cartridge) (entry : Option Addr),
    parseImage image = .next cart → ∃ t : State, boot params image d entry = .next t ∧ t.ok = true ∧
      t.a = 0 ∧ t.x = 0 ∧ t.y = 0 ∧ t.sp = 0xFD ∧ t.p.pack false = 0x24 ∧ t.totalCycles = 7 ∧ t.halted = false ∧
      t.nmiPending = false ∧ t.irqPending = false ∧ t.phase = .running ∧ t.params = params ∧
      t.ppu = { Ppu.atPowerOn with oam := t.ppu.oam, palette := t.ppu.palette, ciram := t.ppu.ciram } ∧
      (∀ k < 0x800, t.ram.read k = d.ram.getD k 0) ∧ (∀ k < 0x2000, t.prgRam.read k = d.prgRam.getD k 0) ∧
      (∀ k < 0x100, t.ppu.oam.read k = d.oam.getD k 0) ∧
      (∀ k < 0x20, (t.ppu.palette.read k).toNat = (d.palette.getD k 0).toNat % 64) ∧
      (∀ k < (if cart.mirroring = .fourScreen then 0x1000 else 0x800), t.ppu.ciram.read k = d.ciram.getD k 0) ∧
      t.cart = { cart with chr := t.cart.chr } ∧ (cart.chrPages ≠ 0 → t.cart = cart) ∧
      (cart.chrPages = 0 → ∀ k < 0x2000, t.cart.chr.read k = d.chrRam.getD k 0) ∧
      t.pads = Controllers.atPowerOn ∧ t.pc = entry.getD (w16 (rom t 0xFFFD) (rom t 0xFFFC)))

/-- Loading an image (R87 to R93, R504; decisions D17, D19, D20, D44): bad magic faults; exactly the images mapper 0
admits are accepted; and an accepted image gives the cartridge its header and bodies say, in canonical form. -/
def Obligations.ImageLoading : Prop :=
  ∀ image : List Byte,
    let h := fun k : Nat => image.getD k 0
    let body := 16 + (if (h 6).getLsbD 2 then 512 else 0)
    let prg := (h 4).toNat * 16384
    let chr := (h 5).toNat * 8192
    ((∃ r, parseImage image = .fault r) ↔ image.take 4 ≠ [0x4E, 0x45, 0x53, 0x1A]) ∧
    ((∃ cart, parseImage image = .next cart) ↔
      image.take 4 = [0x4E, 0x45, 0x53, 0x1A] ∧ (h 6).toNat / 16 = 0 ∧ (h 7).toNat / 16 = 0 ∧
      ((h 4).toNat = 1 ∨ (h 4).toNat = 2) ∧ (h 5).toNat ≤ 1 ∧ body + prg + chr ≤ image.length) ∧
    ∀ cart, parseImage image = .next cart →
      cart.ok = true ∧ cart.prgPages = (h 4).toNat ∧ cart.chrPages = (h 5).toNat ∧
      cart.mirroring = (if (h 6).getLsbD 3 then .fourScreen else if (h 6).getLsbD 0 then .vertical else .horizontal) ∧
      (∀ k < prg, cart.prg.read k = image.getD (body + k) 0) ∧
      (∀ k < chr, cart.chr.read k = image.getD (body + prg + k) 0)
end

