-- ==== Sys2Proof/Laws/Memory.lean ====
section
/-! SUPPORT. The laws of keyed lists and byte memories: read after write, the canonical form and the size are kept,
and a canonical memory is determined by its reads. -/

namespace Sys2Proof.Machine

section Keyed
variable {α : Type}

theorem keyedRising_mono {low low' : Nat} {m : List (Nat × α)} (h : keyedRising low m = true) (hl : low' ≤ low) :
    keyedRising low' m = true := by
  cases m with
  | nil => rfl
  | cons e rest => simp_all [keyedRising]; omega

theorem keyedGet_none_of_rising {low k : Nat} {m : List (Nat × α)} (h : keyedRising low m = true) (hk : k < low) :
    keyedGet k m = none := by
  induction m generalizing low with
  | nil => rfl
  | cons e rest ih =>
    obtain ⟨j, u⟩ := e
    simp only [keyedRising, Bool.and_eq_true, decide_eq_true_eq] at h
    simp only [keyedGet]
    rw [if_neg (by omega)]
    exact ih h.2 (by omega)

@[simp] theorem keyedGet_set_same (k : Nat) (v : α) (m : List (Nat × α)) : keyedGet k (keyedSet k v m) = some v := by
  induction m with
  | nil => simp [keyedSet, keyedGet]
  | cons e rest ih =>
    obtain ⟨j, u⟩ := e
    simp only [keyedSet]
    split
    · simp [keyedGet]
    · split
      · simp [keyedGet]
      · simp [keyedGet, *]

theorem keyedGet_set_other {k j : Nat} (v : α) (m : List (Nat × α)) (h : j ≠ k) :
    keyedGet j (keyedSet k v m) = keyedGet j m := by
  induction m with
  | nil => simp [keyedSet, keyedGet, h]
  | cons e rest ih =>
    obtain ⟨i, u⟩ := e
    simp only [keyedSet]
    split
    · simp [keyedGet, h]
    · split
      · subst i; simp [keyedGet, h]
      · simp only [keyedGet, ih]

theorem keyedRising_set {low k : Nat} (v : α) {m : List (Nat × α)} (h : keyedRising low m = true) (hk : low ≤ k) :
    keyedRising low (keyedSet k v m) = true := by
  induction m generalizing low with
  | nil => simp [keyedSet, keyedRising, hk]
  | cons e rest ih =>
    obtain ⟨j, u⟩ := e
    simp only [keyedRising, Bool.and_eq_true, decide_eq_true_eq] at h
    simp only [keyedSet]
    split
    · simp only [keyedRising, Bool.and_eq_true, decide_eq_true_eq]
      exact ⟨hk, by omega, h.2⟩
    · split
      · subst j; simp [keyedRising, hk, h.2]
      · simp only [keyedRising, Bool.and_eq_true, decide_eq_true_eq]
        exact ⟨h.1, ih h.2 (by omega)⟩

theorem keyedRising_erase {low k : Nat} {m : List (Nat × α)} (h : keyedRising low m = true) :
    keyedRising low (keyedErase k m) = true := by
  induction m generalizing low with
  | nil => rfl
  | cons e rest ih =>
    obtain ⟨j, u⟩ := e
    simp only [keyedRising, Bool.and_eq_true, decide_eq_true_eq] at h
    simp only [keyedErase]
    split
    · exact keyedRising_mono h.2 (by omega)
    · simp only [keyedRising, Bool.and_eq_true, decide_eq_true_eq]
      exact ⟨h.1, ih h.2⟩

theorem keyedGet_erase_same {low k : Nat} {m : List (Nat × α)} (h : keyedRising low m = true) :
    keyedGet k (keyedErase k m) = none := by
  induction m generalizing low with
  | nil => rfl
  | cons e rest ih =>
    obtain ⟨j, u⟩ := e
    simp only [keyedRising, Bool.and_eq_true, decide_eq_true_eq] at h
    simp only [keyedErase]
    split
    · subst j; exact keyedGet_none_of_rising h.2 (by omega)
    · simp only [keyedGet]; rw [if_neg ‹_›]; exact ih h.2

theorem keyedGet_erase_other {k j : Nat} (m : List (Nat × α)) (h : j ≠ k) :
    keyedGet j (keyedErase k m) = keyedGet j m := by
  induction m with
  | nil => rfl
  | cons e rest ih =>
    obtain ⟨i, u⟩ := e
    simp only [keyedErase]
    split
    · subst i; simp [keyedGet, h]
    · simp only [keyedGet, ih]

/-- Every entry of a list with one key set is the new one or an old one. -/
theorem mem_keyedSet {k : Nat} {v : α} {m : List (Nat × α)} {e : Nat × α} (h : e ∈ keyedSet k v m) :
    e = (k, v) ∨ e ∈ m := by
  induction m with
  | nil => simp_all [keyedSet]
  | cons a rest ih =>
    obtain ⟨j, u⟩ := a
    simp only [keyedSet] at h
    split at h
    · simpa using h
    · split at h
      · simp only [List.mem_cons] at h ⊢; tauto
      · simp only [List.mem_cons] at h ⊢
        rcases h with h | h
        · exact .inr (.inl h)
        · rcases ih h with h | h
          · exact .inl h
          · exact .inr (.inr h)

/-- Every entry of a list with one key erased is an old one. -/
theorem mem_keyedErase {k : Nat} {m : List (Nat × α)} {e : Nat × α} (h : e ∈ keyedErase k m) : e ∈ m := by
  induction m with
  | nil => simp_all [keyedErase]
  | cons a rest ih =>
    obtain ⟨j, u⟩ := a
    simp only [keyedErase] at h
    split at h
    · exact List.mem_cons_of_mem _ h
    · simp only [List.mem_cons] at h ⊢
      exact h.imp id ih

/-- A rising list is determined by its lookups. -/
theorem keyed_ext {low : Nat} {m m' : List (Nat × α)} (h : keyedRising low m = true) (h' : keyedRising low m' = true)
    (heq : ∀ k, keyedGet k m = keyedGet k m') : m = m' := by
  induction m generalizing low m' with
  | nil =>
    cases m' with
    | nil => rfl
    | cons e rest => have := heq e.1; simp [keyedGet] at this
  | cons e rest ih =>
    obtain ⟨j, u⟩ := e
    cases m' with
    | nil => have := heq j; simp [keyedGet] at this
    | cons e' rest' =>
      obtain ⟨j', u'⟩ := e'
      simp only [keyedRising, Bool.and_eq_true, decide_eq_true_eq] at h h'
      have hj : j = j' := by
        rcases Nat.lt_trichotomy j j' with hlt | heq' | hlt
        · have := heq j
          simp only [keyedGet, if_neg (show ¬ j = j' by omega)] at this
          rw [keyedGet_none_of_rising h'.2 (by omega)] at this; cases this
        · exact heq'
        · have := heq j'
          simp only [keyedGet, if_neg (show ¬ j' = j by omega)] at this
          rw [keyedGet_none_of_rising h.2 (by omega)] at this; cases this
      subst hj
      have hu : u = u' := by simpa [keyedGet] using heq j
      subst hu
      congr 1
      refine ih h.2 h'.2 fun k => ?_
      by_cases hk : k = j
      · subst hk
        rw [keyedGet_none_of_rising h.2 (by omega), keyedGet_none_of_rising h'.2 (by omega)]
      · simpa [keyedGet, hk] using heq k

/-- A listed key's value is an entry. -/
theorem mem_of_keyedGet {k : Nat} {v : α} {m : List (Nat × α)} (h : keyedGet k m = some v) : (k, v) ∈ m := by
  induction m with
  | nil => simp [keyedGet] at h
  | cons e rest ih =>
    obtain ⟨j, u⟩ := e
    simp only [keyedGet] at h
    split at h
    · subst j; simp at h; subst h; simp
    · exact List.mem_cons_of_mem _ (ih h)

end Keyed

theorem Memory.wf_iff {m : Memory} :
    m.wf = true ↔ keyedRising 0 m = true ∧ ∀ e ∈ m, e.2 ≠ Memory.unlisted := by
  simp only [Memory.wf, Bool.and_eq_true, List.all_eq_true, bne_iff_ne]

theorem Memory.below_iff {m : Memory} {n : Nat} : m.below n = true ↔ ∀ e ∈ m, e.1 < n := by
  simp only [Memory.below, List.all_eq_true, decide_eq_true_eq]

@[simp] theorem Memory.read_write_same {m : Memory} (h : m.wf = true) (k : Nat) (b : Byte) :
    (m.write k b).read k = b := by
  simp only [Memory.write, Memory.read]
  split
  · rw [keyedGet_erase_same (Memory.wf_iff.mp h).1]; simp_all
  · simp

theorem Memory.read_write_other (m : Memory) {k j : Nat} (b : Byte) (h : j ≠ k) :
    (m.write k b).read j = m.read j := by
  simp only [Memory.write, Memory.read]
  split
  · rw [keyedGet_erase_other _ h]
  · rw [keyedGet_set_other _ _ h]

theorem Memory.write_wf {m : Memory} (h : m.wf = true) (k : Nat) (b : Byte) : (m.write k b).wf = true := by
  rw [Memory.wf_iff] at h ⊢
  simp only [Memory.write]
  split
  · exact ⟨keyedRising_erase h.1, fun e he => h.2 e (mem_keyedErase he)⟩
  · refine ⟨keyedRising_set b h.1 (Nat.zero_le k), fun e he => ?_⟩
    rcases mem_keyedSet he with rfl | he
    · assumption
    · exact h.2 e he

theorem Memory.write_below {m : Memory} {n k : Nat} (h : m.below n = true) (hk : k < n) (b : Byte) :
    (m.write k b).below n = true := by
  rw [Memory.below_iff] at h ⊢
  intro e he
  simp only [Memory.write] at he
  split at he
  · exact h e (mem_keyedErase he)
  · rcases mem_keyedSet he with rfl | he
    · exact hk
    · exact h e he

theorem Memory.write_ok {m : Memory} {n k : Nat} (h : m.ok n = true) (hk : k < n) (b : Byte) :
    (m.write k b).ok n = true := by
  simp only [Memory.ok, Bool.and_eq_true] at h ⊢
  exact ⟨Memory.write_wf h.1 k b, Memory.write_below h.2 hk b⟩

theorem Memory.ok_wf {m : Memory} {n : Nat} (h : m.ok n = true) : m.wf = true := by
  simp only [Memory.ok, Bool.and_eq_true] at h; exact h.1

/-- Two canonical memories that read the same are the same list. -/
theorem Memory.ext_reads {m m' : Memory} (h : m.wf = true) (h' : m'.wf = true) (heq : ∀ k, m.read k = m'.read k) :
    m = m' := by
  rw [Memory.wf_iff] at h h'
  refine keyed_ext h.1 h'.1 fun k => ?_
  have hk := heq k
  simp only [Memory.read] at hk
  cases hg : keyedGet k m with
  | none =>
    cases hg' : keyedGet k m' with
    | none => rfl
    | some v => rw [hg, hg'] at hk; exact absurd hk.symm (h'.2 _ (mem_of_keyedGet hg'))
  | some u =>
    cases hg' : keyedGet k m' with
    | none => rw [hg, hg'] at hk; exact absurd hk (h.2 _ (mem_of_keyedGet hg))
    | some v => rw [hg, hg'] at hk; simpa using hk

theorem Memory.ofBytesFrom_rising (bs : List Byte) (base : Nat) :
    keyedRising base (Memory.ofBytesFrom base bs) = true := by
  induction bs generalizing base with
  | nil => rfl
  | cons b rest ih =>
    simp only [Memory.ofBytesFrom]
    split
    · exact keyedRising_mono (ih (base + 1)) (by omega)
    · simp [keyedRising, ih (base + 1)]

theorem mem_ofBytesFrom {bs : List Byte} {base : Nat} {e : Nat × Byte} (h : e ∈ Memory.ofBytesFrom base bs) :
    e.2 ≠ Memory.unlisted ∧ e.1 < base + bs.length := by
  induction bs generalizing base with
  | nil => simp [Memory.ofBytesFrom] at h
  | cons b rest ih =>
    simp only [Memory.ofBytesFrom] at h
    split at h
    · have := ih h; simp only [List.length_cons]; exact ⟨this.1, by omega⟩
    · simp only [List.mem_cons] at h
      rcases h with rfl | h
      · exact ⟨by assumption, by simp⟩
      · have := ih h; simp only [List.length_cons]; exact ⟨this.1, by omega⟩

/-- The memory of a byte list is canonical and as large as the list. -/
theorem Memory.ofBytes_ok (bs : List Byte) {n : Nat} (h : bs.length ≤ n) :
    (Memory.ofBytesFrom 0 bs).ok n = true := by
  simp only [Memory.ok, Bool.and_eq_true]
  refine ⟨Memory.wf_iff.mpr ⟨Memory.ofBytesFrom_rising bs 0, fun e he => (mem_ofBytesFrom he).1⟩, ?_⟩
  exact Memory.below_iff.mpr fun e he => by have := (mem_ofBytesFrom he).2; omega

end Sys2Proof.Machine
end

