-- ==== Sys2Proof/Laws/State.lean ====
section
/-! SUPPORT. What each update of one field does to every field. -/

namespace Sys2Proof.Machine

@[simp] theorem State.setA_a (s : State) (v : Byte) : (s.setA v).a = v := rfl
@[simp] theorem State.setA_x (s : State) (v : Byte) : (s.setA v).x = s.x := rfl
@[simp] theorem State.setA_y (s : State) (v : Byte) : (s.setA v).y = s.y := rfl
@[simp] theorem State.setA_sp (s : State) (v : Byte) : (s.setA v).sp = s.sp := rfl
@[simp] theorem State.setA_pc (s : State) (v : Byte) : (s.setA v).pc = s.pc := rfl
@[simp] theorem State.setA_p (s : State) (v : Byte) : (s.setA v).p = s.p := rfl
@[simp] theorem State.setA_cycles (s : State) (v : Byte) : (s.setA v).cycles = s.cycles := rfl
@[simp] theorem State.setA_totalCycles (s : State) (v : Byte) : (s.setA v).totalCycles = s.totalCycles := rfl
@[simp] theorem State.setA_halted (s : State) (v : Byte) : (s.setA v).halted = s.halted := rfl
@[simp] theorem State.setA_nmiPending (s : State) (v : Byte) : (s.setA v).nmiPending = s.nmiPending := rfl
@[simp] theorem State.setA_irqPending (s : State) (v : Byte) : (s.setA v).irqPending = s.irqPending := rfl
@[simp] theorem State.setA_ram (s : State) (v : Byte) : (s.setA v).ram = s.ram := rfl
@[simp] theorem State.setA_prgRam (s : State) (v : Byte) : (s.setA v).prgRam = s.prgRam := rfl
@[simp] theorem State.setA_cart (s : State) (v : Byte) : (s.setA v).cart = s.cart := rfl
@[simp] theorem State.setA_ppu (s : State) (v : Byte) : (s.setA v).ppu = s.ppu := rfl
@[simp] theorem State.setA_pads (s : State) (v : Byte) : (s.setA v).pads = s.pads := rfl
@[simp] theorem State.setA_draws (s : State) (v : Byte) : (s.setA v).draws = s.draws := rfl
@[simp] theorem State.setA_params (s : State) (v : Byte) : (s.setA v).params = s.params := rfl
@[simp] theorem State.setA_phase (s : State) (v : Byte) : (s.setA v).phase = s.phase := rfl

@[simp] theorem State.setX_a (s : State) (v : Byte) : (s.setX v).a = s.a := rfl
@[simp] theorem State.setX_x (s : State) (v : Byte) : (s.setX v).x = v := rfl
@[simp] theorem State.setX_y (s : State) (v : Byte) : (s.setX v).y = s.y := rfl
@[simp] theorem State.setX_sp (s : State) (v : Byte) : (s.setX v).sp = s.sp := rfl
@[simp] theorem State.setX_pc (s : State) (v : Byte) : (s.setX v).pc = s.pc := rfl
@[simp] theorem State.setX_p (s : State) (v : Byte) : (s.setX v).p = s.p := rfl
@[simp] theorem State.setX_cycles (s : State) (v : Byte) : (s.setX v).cycles = s.cycles := rfl
@[simp] theorem State.setX_totalCycles (s : State) (v : Byte) : (s.setX v).totalCycles = s.totalCycles := rfl
@[simp] theorem State.setX_halted (s : State) (v : Byte) : (s.setX v).halted = s.halted := rfl
@[simp] theorem State.setX_nmiPending (s : State) (v : Byte) : (s.setX v).nmiPending = s.nmiPending := rfl
@[simp] theorem State.setX_irqPending (s : State) (v : Byte) : (s.setX v).irqPending = s.irqPending := rfl
@[simp] theorem State.setX_ram (s : State) (v : Byte) : (s.setX v).ram = s.ram := rfl
@[simp] theorem State.setX_prgRam (s : State) (v : Byte) : (s.setX v).prgRam = s.prgRam := rfl
@[simp] theorem State.setX_cart (s : State) (v : Byte) : (s.setX v).cart = s.cart := rfl
@[simp] theorem State.setX_ppu (s : State) (v : Byte) : (s.setX v).ppu = s.ppu := rfl
@[simp] theorem State.setX_pads (s : State) (v : Byte) : (s.setX v).pads = s.pads := rfl
@[simp] theorem State.setX_draws (s : State) (v : Byte) : (s.setX v).draws = s.draws := rfl
@[simp] theorem State.setX_params (s : State) (v : Byte) : (s.setX v).params = s.params := rfl
@[simp] theorem State.setX_phase (s : State) (v : Byte) : (s.setX v).phase = s.phase := rfl

@[simp] theorem State.setY_a (s : State) (v : Byte) : (s.setY v).a = s.a := rfl
@[simp] theorem State.setY_x (s : State) (v : Byte) : (s.setY v).x = s.x := rfl
@[simp] theorem State.setY_y (s : State) (v : Byte) : (s.setY v).y = v := rfl
@[simp] theorem State.setY_sp (s : State) (v : Byte) : (s.setY v).sp = s.sp := rfl
@[simp] theorem State.setY_pc (s : State) (v : Byte) : (s.setY v).pc = s.pc := rfl
@[simp] theorem State.setY_p (s : State) (v : Byte) : (s.setY v).p = s.p := rfl
@[simp] theorem State.setY_cycles (s : State) (v : Byte) : (s.setY v).cycles = s.cycles := rfl
@[simp] theorem State.setY_totalCycles (s : State) (v : Byte) : (s.setY v).totalCycles = s.totalCycles := rfl
@[simp] theorem State.setY_halted (s : State) (v : Byte) : (s.setY v).halted = s.halted := rfl
@[simp] theorem State.setY_nmiPending (s : State) (v : Byte) : (s.setY v).nmiPending = s.nmiPending := rfl
@[simp] theorem State.setY_irqPending (s : State) (v : Byte) : (s.setY v).irqPending = s.irqPending := rfl
@[simp] theorem State.setY_ram (s : State) (v : Byte) : (s.setY v).ram = s.ram := rfl
@[simp] theorem State.setY_prgRam (s : State) (v : Byte) : (s.setY v).prgRam = s.prgRam := rfl
@[simp] theorem State.setY_cart (s : State) (v : Byte) : (s.setY v).cart = s.cart := rfl
@[simp] theorem State.setY_ppu (s : State) (v : Byte) : (s.setY v).ppu = s.ppu := rfl
@[simp] theorem State.setY_pads (s : State) (v : Byte) : (s.setY v).pads = s.pads := rfl
@[simp] theorem State.setY_draws (s : State) (v : Byte) : (s.setY v).draws = s.draws := rfl
@[simp] theorem State.setY_params (s : State) (v : Byte) : (s.setY v).params = s.params := rfl
@[simp] theorem State.setY_phase (s : State) (v : Byte) : (s.setY v).phase = s.phase := rfl

@[simp] theorem State.setSp_a (s : State) (v : Byte) : (s.setSp v).a = s.a := rfl
@[simp] theorem State.setSp_x (s : State) (v : Byte) : (s.setSp v).x = s.x := rfl
@[simp] theorem State.setSp_y (s : State) (v : Byte) : (s.setSp v).y = s.y := rfl
@[simp] theorem State.setSp_sp (s : State) (v : Byte) : (s.setSp v).sp = v := rfl
@[simp] theorem State.setSp_pc (s : State) (v : Byte) : (s.setSp v).pc = s.pc := rfl
@[simp] theorem State.setSp_p (s : State) (v : Byte) : (s.setSp v).p = s.p := rfl
@[simp] theorem State.setSp_cycles (s : State) (v : Byte) : (s.setSp v).cycles = s.cycles := rfl
@[simp] theorem State.setSp_totalCycles (s : State) (v : Byte) : (s.setSp v).totalCycles = s.totalCycles := rfl
@[simp] theorem State.setSp_halted (s : State) (v : Byte) : (s.setSp v).halted = s.halted := rfl
@[simp] theorem State.setSp_nmiPending (s : State) (v : Byte) : (s.setSp v).nmiPending = s.nmiPending := rfl
@[simp] theorem State.setSp_irqPending (s : State) (v : Byte) : (s.setSp v).irqPending = s.irqPending := rfl
@[simp] theorem State.setSp_ram (s : State) (v : Byte) : (s.setSp v).ram = s.ram := rfl
@[simp] theorem State.setSp_prgRam (s : State) (v : Byte) : (s.setSp v).prgRam = s.prgRam := rfl
@[simp] theorem State.setSp_cart (s : State) (v : Byte) : (s.setSp v).cart = s.cart := rfl
@[simp] theorem State.setSp_ppu (s : State) (v : Byte) : (s.setSp v).ppu = s.ppu := rfl
@[simp] theorem State.setSp_pads (s : State) (v : Byte) : (s.setSp v).pads = s.pads := rfl
@[simp] theorem State.setSp_draws (s : State) (v : Byte) : (s.setSp v).draws = s.draws := rfl
@[simp] theorem State.setSp_params (s : State) (v : Byte) : (s.setSp v).params = s.params := rfl
@[simp] theorem State.setSp_phase (s : State) (v : Byte) : (s.setSp v).phase = s.phase := rfl

@[simp] theorem State.setPc_a (s : State) (v : Addr) : (s.setPc v).a = s.a := rfl
@[simp] theorem State.setPc_x (s : State) (v : Addr) : (s.setPc v).x = s.x := rfl
@[simp] theorem State.setPc_y (s : State) (v : Addr) : (s.setPc v).y = s.y := rfl
@[simp] theorem State.setPc_sp (s : State) (v : Addr) : (s.setPc v).sp = s.sp := rfl
@[simp] theorem State.setPc_pc (s : State) (v : Addr) : (s.setPc v).pc = v := rfl
@[simp] theorem State.setPc_p (s : State) (v : Addr) : (s.setPc v).p = s.p := rfl
@[simp] theorem State.setPc_cycles (s : State) (v : Addr) : (s.setPc v).cycles = s.cycles := rfl
@[simp] theorem State.setPc_totalCycles (s : State) (v : Addr) : (s.setPc v).totalCycles = s.totalCycles := rfl
@[simp] theorem State.setPc_halted (s : State) (v : Addr) : (s.setPc v).halted = s.halted := rfl
@[simp] theorem State.setPc_nmiPending (s : State) (v : Addr) : (s.setPc v).nmiPending = s.nmiPending := rfl
@[simp] theorem State.setPc_irqPending (s : State) (v : Addr) : (s.setPc v).irqPending = s.irqPending := rfl
@[simp] theorem State.setPc_ram (s : State) (v : Addr) : (s.setPc v).ram = s.ram := rfl
@[simp] theorem State.setPc_prgRam (s : State) (v : Addr) : (s.setPc v).prgRam = s.prgRam := rfl
@[simp] theorem State.setPc_cart (s : State) (v : Addr) : (s.setPc v).cart = s.cart := rfl
@[simp] theorem State.setPc_ppu (s : State) (v : Addr) : (s.setPc v).ppu = s.ppu := rfl
@[simp] theorem State.setPc_pads (s : State) (v : Addr) : (s.setPc v).pads = s.pads := rfl
@[simp] theorem State.setPc_draws (s : State) (v : Addr) : (s.setPc v).draws = s.draws := rfl
@[simp] theorem State.setPc_params (s : State) (v : Addr) : (s.setPc v).params = s.params := rfl
@[simp] theorem State.setPc_phase (s : State) (v : Addr) : (s.setPc v).phase = s.phase := rfl

@[simp] theorem State.setP_a (s : State) (v : Flags) : (s.setP v).a = s.a := rfl
@[simp] theorem State.setP_x (s : State) (v : Flags) : (s.setP v).x = s.x := rfl
@[simp] theorem State.setP_y (s : State) (v : Flags) : (s.setP v).y = s.y := rfl
@[simp] theorem State.setP_sp (s : State) (v : Flags) : (s.setP v).sp = s.sp := rfl
@[simp] theorem State.setP_pc (s : State) (v : Flags) : (s.setP v).pc = s.pc := rfl
@[simp] theorem State.setP_p (s : State) (v : Flags) : (s.setP v).p = v := rfl
@[simp] theorem State.setP_cycles (s : State) (v : Flags) : (s.setP v).cycles = s.cycles := rfl
@[simp] theorem State.setP_totalCycles (s : State) (v : Flags) : (s.setP v).totalCycles = s.totalCycles := rfl
@[simp] theorem State.setP_halted (s : State) (v : Flags) : (s.setP v).halted = s.halted := rfl
@[simp] theorem State.setP_nmiPending (s : State) (v : Flags) : (s.setP v).nmiPending = s.nmiPending := rfl
@[simp] theorem State.setP_irqPending (s : State) (v : Flags) : (s.setP v).irqPending = s.irqPending := rfl
@[simp] theorem State.setP_ram (s : State) (v : Flags) : (s.setP v).ram = s.ram := rfl
@[simp] theorem State.setP_prgRam (s : State) (v : Flags) : (s.setP v).prgRam = s.prgRam := rfl
@[simp] theorem State.setP_cart (s : State) (v : Flags) : (s.setP v).cart = s.cart := rfl
@[simp] theorem State.setP_ppu (s : State) (v : Flags) : (s.setP v).ppu = s.ppu := rfl
@[simp] theorem State.setP_pads (s : State) (v : Flags) : (s.setP v).pads = s.pads := rfl
@[simp] theorem State.setP_draws (s : State) (v : Flags) : (s.setP v).draws = s.draws := rfl
@[simp] theorem State.setP_params (s : State) (v : Flags) : (s.setP v).params = s.params := rfl
@[simp] theorem State.setP_phase (s : State) (v : Flags) : (s.setP v).phase = s.phase := rfl

@[simp] theorem State.setCycles_a (s : State) (v : Nat) : (s.setCycles v).a = s.a := rfl
@[simp] theorem State.setCycles_x (s : State) (v : Nat) : (s.setCycles v).x = s.x := rfl
@[simp] theorem State.setCycles_y (s : State) (v : Nat) : (s.setCycles v).y = s.y := rfl
@[simp] theorem State.setCycles_sp (s : State) (v : Nat) : (s.setCycles v).sp = s.sp := rfl
@[simp] theorem State.setCycles_pc (s : State) (v : Nat) : (s.setCycles v).pc = s.pc := rfl
@[simp] theorem State.setCycles_p (s : State) (v : Nat) : (s.setCycles v).p = s.p := rfl
@[simp] theorem State.setCycles_cycles (s : State) (v : Nat) : (s.setCycles v).cycles = v := rfl
@[simp] theorem State.setCycles_totalCycles (s : State) (v : Nat) : (s.setCycles v).totalCycles = s.totalCycles := rfl
@[simp] theorem State.setCycles_halted (s : State) (v : Nat) : (s.setCycles v).halted = s.halted := rfl
@[simp] theorem State.setCycles_nmiPending (s : State) (v : Nat) : (s.setCycles v).nmiPending = s.nmiPending := rfl
@[simp] theorem State.setCycles_irqPending (s : State) (v : Nat) : (s.setCycles v).irqPending = s.irqPending := rfl
@[simp] theorem State.setCycles_ram (s : State) (v : Nat) : (s.setCycles v).ram = s.ram := rfl
@[simp] theorem State.setCycles_prgRam (s : State) (v : Nat) : (s.setCycles v).prgRam = s.prgRam := rfl
@[simp] theorem State.setCycles_cart (s : State) (v : Nat) : (s.setCycles v).cart = s.cart := rfl
@[simp] theorem State.setCycles_ppu (s : State) (v : Nat) : (s.setCycles v).ppu = s.ppu := rfl
@[simp] theorem State.setCycles_pads (s : State) (v : Nat) : (s.setCycles v).pads = s.pads := rfl
@[simp] theorem State.setCycles_draws (s : State) (v : Nat) : (s.setCycles v).draws = s.draws := rfl
@[simp] theorem State.setCycles_params (s : State) (v : Nat) : (s.setCycles v).params = s.params := rfl
@[simp] theorem State.setCycles_phase (s : State) (v : Nat) : (s.setCycles v).phase = s.phase := rfl

@[simp] theorem State.setTotalCycles_a (s : State) (v : Nat) : (s.setTotalCycles v).a = s.a := rfl
@[simp] theorem State.setTotalCycles_x (s : State) (v : Nat) : (s.setTotalCycles v).x = s.x := rfl
@[simp] theorem State.setTotalCycles_y (s : State) (v : Nat) : (s.setTotalCycles v).y = s.y := rfl
@[simp] theorem State.setTotalCycles_sp (s : State) (v : Nat) : (s.setTotalCycles v).sp = s.sp := rfl
@[simp] theorem State.setTotalCycles_pc (s : State) (v : Nat) : (s.setTotalCycles v).pc = s.pc := rfl
@[simp] theorem State.setTotalCycles_p (s : State) (v : Nat) : (s.setTotalCycles v).p = s.p := rfl
@[simp] theorem State.setTotalCycles_cycles (s : State) (v : Nat) : (s.setTotalCycles v).cycles = s.cycles := rfl
@[simp] theorem State.setTotalCycles_totalCycles (s : State) (v : Nat) : (s.setTotalCycles v).totalCycles = v := rfl
@[simp] theorem State.setTotalCycles_halted (s : State) (v : Nat) : (s.setTotalCycles v).halted = s.halted := rfl
@[simp] theorem State.setTotalCycles_nmiPending (s : State) (v : Nat) : (s.setTotalCycles v).nmiPending = s.nmiPending := rfl
@[simp] theorem State.setTotalCycles_irqPending (s : State) (v : Nat) : (s.setTotalCycles v).irqPending = s.irqPending := rfl
@[simp] theorem State.setTotalCycles_ram (s : State) (v : Nat) : (s.setTotalCycles v).ram = s.ram := rfl
@[simp] theorem State.setTotalCycles_prgRam (s : State) (v : Nat) : (s.setTotalCycles v).prgRam = s.prgRam := rfl
@[simp] theorem State.setTotalCycles_cart (s : State) (v : Nat) : (s.setTotalCycles v).cart = s.cart := rfl
@[simp] theorem State.setTotalCycles_ppu (s : State) (v : Nat) : (s.setTotalCycles v).ppu = s.ppu := rfl
@[simp] theorem State.setTotalCycles_pads (s : State) (v : Nat) : (s.setTotalCycles v).pads = s.pads := rfl
@[simp] theorem State.setTotalCycles_draws (s : State) (v : Nat) : (s.setTotalCycles v).draws = s.draws := rfl
@[simp] theorem State.setTotalCycles_params (s : State) (v : Nat) : (s.setTotalCycles v).params = s.params := rfl
@[simp] theorem State.setTotalCycles_phase (s : State) (v : Nat) : (s.setTotalCycles v).phase = s.phase := rfl

@[simp] theorem State.setHalted_a (s : State) (v : Bool) : (s.setHalted v).a = s.a := rfl
@[simp] theorem State.setHalted_x (s : State) (v : Bool) : (s.setHalted v).x = s.x := rfl
@[simp] theorem State.setHalted_y (s : State) (v : Bool) : (s.setHalted v).y = s.y := rfl
@[simp] theorem State.setHalted_sp (s : State) (v : Bool) : (s.setHalted v).sp = s.sp := rfl
@[simp] theorem State.setHalted_pc (s : State) (v : Bool) : (s.setHalted v).pc = s.pc := rfl
@[simp] theorem State.setHalted_p (s : State) (v : Bool) : (s.setHalted v).p = s.p := rfl
@[simp] theorem State.setHalted_cycles (s : State) (v : Bool) : (s.setHalted v).cycles = s.cycles := rfl
@[simp] theorem State.setHalted_totalCycles (s : State) (v : Bool) : (s.setHalted v).totalCycles = s.totalCycles := rfl
@[simp] theorem State.setHalted_halted (s : State) (v : Bool) : (s.setHalted v).halted = v := rfl
@[simp] theorem State.setHalted_nmiPending (s : State) (v : Bool) : (s.setHalted v).nmiPending = s.nmiPending := rfl
@[simp] theorem State.setHalted_irqPending (s : State) (v : Bool) : (s.setHalted v).irqPending = s.irqPending := rfl
@[simp] theorem State.setHalted_ram (s : State) (v : Bool) : (s.setHalted v).ram = s.ram := rfl
@[simp] theorem State.setHalted_prgRam (s : State) (v : Bool) : (s.setHalted v).prgRam = s.prgRam := rfl
@[simp] theorem State.setHalted_cart (s : State) (v : Bool) : (s.setHalted v).cart = s.cart := rfl
@[simp] theorem State.setHalted_ppu (s : State) (v : Bool) : (s.setHalted v).ppu = s.ppu := rfl
@[simp] theorem State.setHalted_pads (s : State) (v : Bool) : (s.setHalted v).pads = s.pads := rfl
@[simp] theorem State.setHalted_draws (s : State) (v : Bool) : (s.setHalted v).draws = s.draws := rfl
@[simp] theorem State.setHalted_params (s : State) (v : Bool) : (s.setHalted v).params = s.params := rfl
@[simp] theorem State.setHalted_phase (s : State) (v : Bool) : (s.setHalted v).phase = s.phase := rfl

@[simp] theorem State.setNmi_a (s : State) (v : Bool) : (s.setNmi v).a = s.a := rfl
@[simp] theorem State.setNmi_x (s : State) (v : Bool) : (s.setNmi v).x = s.x := rfl
@[simp] theorem State.setNmi_y (s : State) (v : Bool) : (s.setNmi v).y = s.y := rfl
@[simp] theorem State.setNmi_sp (s : State) (v : Bool) : (s.setNmi v).sp = s.sp := rfl
@[simp] theorem State.setNmi_pc (s : State) (v : Bool) : (s.setNmi v).pc = s.pc := rfl
@[simp] theorem State.setNmi_p (s : State) (v : Bool) : (s.setNmi v).p = s.p := rfl
@[simp] theorem State.setNmi_cycles (s : State) (v : Bool) : (s.setNmi v).cycles = s.cycles := rfl
@[simp] theorem State.setNmi_totalCycles (s : State) (v : Bool) : (s.setNmi v).totalCycles = s.totalCycles := rfl
@[simp] theorem State.setNmi_halted (s : State) (v : Bool) : (s.setNmi v).halted = s.halted := rfl
@[simp] theorem State.setNmi_nmiPending (s : State) (v : Bool) : (s.setNmi v).nmiPending = v := rfl
@[simp] theorem State.setNmi_irqPending (s : State) (v : Bool) : (s.setNmi v).irqPending = s.irqPending := rfl
@[simp] theorem State.setNmi_ram (s : State) (v : Bool) : (s.setNmi v).ram = s.ram := rfl
@[simp] theorem State.setNmi_prgRam (s : State) (v : Bool) : (s.setNmi v).prgRam = s.prgRam := rfl
@[simp] theorem State.setNmi_cart (s : State) (v : Bool) : (s.setNmi v).cart = s.cart := rfl
@[simp] theorem State.setNmi_ppu (s : State) (v : Bool) : (s.setNmi v).ppu = s.ppu := rfl
@[simp] theorem State.setNmi_pads (s : State) (v : Bool) : (s.setNmi v).pads = s.pads := rfl
@[simp] theorem State.setNmi_draws (s : State) (v : Bool) : (s.setNmi v).draws = s.draws := rfl
@[simp] theorem State.setNmi_params (s : State) (v : Bool) : (s.setNmi v).params = s.params := rfl
@[simp] theorem State.setNmi_phase (s : State) (v : Bool) : (s.setNmi v).phase = s.phase := rfl

@[simp] theorem State.setIrq_a (s : State) (v : Bool) : (s.setIrq v).a = s.a := rfl
@[simp] theorem State.setIrq_x (s : State) (v : Bool) : (s.setIrq v).x = s.x := rfl
@[simp] theorem State.setIrq_y (s : State) (v : Bool) : (s.setIrq v).y = s.y := rfl
@[simp] theorem State.setIrq_sp (s : State) (v : Bool) : (s.setIrq v).sp = s.sp := rfl
@[simp] theorem State.setIrq_pc (s : State) (v : Bool) : (s.setIrq v).pc = s.pc := rfl
@[simp] theorem State.setIrq_p (s : State) (v : Bool) : (s.setIrq v).p = s.p := rfl
@[simp] theorem State.setIrq_cycles (s : State) (v : Bool) : (s.setIrq v).cycles = s.cycles := rfl
@[simp] theorem State.setIrq_totalCycles (s : State) (v : Bool) : (s.setIrq v).totalCycles = s.totalCycles := rfl
@[simp] theorem State.setIrq_halted (s : State) (v : Bool) : (s.setIrq v).halted = s.halted := rfl
@[simp] theorem State.setIrq_nmiPending (s : State) (v : Bool) : (s.setIrq v).nmiPending = s.nmiPending := rfl
@[simp] theorem State.setIrq_irqPending (s : State) (v : Bool) : (s.setIrq v).irqPending = v := rfl
@[simp] theorem State.setIrq_ram (s : State) (v : Bool) : (s.setIrq v).ram = s.ram := rfl
@[simp] theorem State.setIrq_prgRam (s : State) (v : Bool) : (s.setIrq v).prgRam = s.prgRam := rfl
@[simp] theorem State.setIrq_cart (s : State) (v : Bool) : (s.setIrq v).cart = s.cart := rfl
@[simp] theorem State.setIrq_ppu (s : State) (v : Bool) : (s.setIrq v).ppu = s.ppu := rfl
@[simp] theorem State.setIrq_pads (s : State) (v : Bool) : (s.setIrq v).pads = s.pads := rfl
@[simp] theorem State.setIrq_draws (s : State) (v : Bool) : (s.setIrq v).draws = s.draws := rfl
@[simp] theorem State.setIrq_params (s : State) (v : Bool) : (s.setIrq v).params = s.params := rfl
@[simp] theorem State.setIrq_phase (s : State) (v : Bool) : (s.setIrq v).phase = s.phase := rfl

@[simp] theorem State.setRam_a (s : State) (v : Memory) : (s.setRam v).a = s.a := rfl
@[simp] theorem State.setRam_x (s : State) (v : Memory) : (s.setRam v).x = s.x := rfl
@[simp] theorem State.setRam_y (s : State) (v : Memory) : (s.setRam v).y = s.y := rfl
@[simp] theorem State.setRam_sp (s : State) (v : Memory) : (s.setRam v).sp = s.sp := rfl
@[simp] theorem State.setRam_pc (s : State) (v : Memory) : (s.setRam v).pc = s.pc := rfl
@[simp] theorem State.setRam_p (s : State) (v : Memory) : (s.setRam v).p = s.p := rfl
@[simp] theorem State.setRam_cycles (s : State) (v : Memory) : (s.setRam v).cycles = s.cycles := rfl
@[simp] theorem State.setRam_totalCycles (s : State) (v : Memory) : (s.setRam v).totalCycles = s.totalCycles := rfl
@[simp] theorem State.setRam_halted (s : State) (v : Memory) : (s.setRam v).halted = s.halted := rfl
@[simp] theorem State.setRam_nmiPending (s : State) (v : Memory) : (s.setRam v).nmiPending = s.nmiPending := rfl
@[simp] theorem State.setRam_irqPending (s : State) (v : Memory) : (s.setRam v).irqPending = s.irqPending := rfl
@[simp] theorem State.setRam_ram (s : State) (v : Memory) : (s.setRam v).ram = v := rfl
@[simp] theorem State.setRam_prgRam (s : State) (v : Memory) : (s.setRam v).prgRam = s.prgRam := rfl
@[simp] theorem State.setRam_cart (s : State) (v : Memory) : (s.setRam v).cart = s.cart := rfl
@[simp] theorem State.setRam_ppu (s : State) (v : Memory) : (s.setRam v).ppu = s.ppu := rfl
@[simp] theorem State.setRam_pads (s : State) (v : Memory) : (s.setRam v).pads = s.pads := rfl
@[simp] theorem State.setRam_draws (s : State) (v : Memory) : (s.setRam v).draws = s.draws := rfl
@[simp] theorem State.setRam_params (s : State) (v : Memory) : (s.setRam v).params = s.params := rfl
@[simp] theorem State.setRam_phase (s : State) (v : Memory) : (s.setRam v).phase = s.phase := rfl

@[simp] theorem State.setPrgRam_a (s : State) (v : Memory) : (s.setPrgRam v).a = s.a := rfl
@[simp] theorem State.setPrgRam_x (s : State) (v : Memory) : (s.setPrgRam v).x = s.x := rfl
@[simp] theorem State.setPrgRam_y (s : State) (v : Memory) : (s.setPrgRam v).y = s.y := rfl
@[simp] theorem State.setPrgRam_sp (s : State) (v : Memory) : (s.setPrgRam v).sp = s.sp := rfl
@[simp] theorem State.setPrgRam_pc (s : State) (v : Memory) : (s.setPrgRam v).pc = s.pc := rfl
@[simp] theorem State.setPrgRam_p (s : State) (v : Memory) : (s.setPrgRam v).p = s.p := rfl
@[simp] theorem State.setPrgRam_cycles (s : State) (v : Memory) : (s.setPrgRam v).cycles = s.cycles := rfl
@[simp] theorem State.setPrgRam_totalCycles (s : State) (v : Memory) : (s.setPrgRam v).totalCycles = s.totalCycles := rfl
@[simp] theorem State.setPrgRam_halted (s : State) (v : Memory) : (s.setPrgRam v).halted = s.halted := rfl
@[simp] theorem State.setPrgRam_nmiPending (s : State) (v : Memory) : (s.setPrgRam v).nmiPending = s.nmiPending := rfl
@[simp] theorem State.setPrgRam_irqPending (s : State) (v : Memory) : (s.setPrgRam v).irqPending = s.irqPending := rfl
@[simp] theorem State.setPrgRam_ram (s : State) (v : Memory) : (s.setPrgRam v).ram = s.ram := rfl
@[simp] theorem State.setPrgRam_prgRam (s : State) (v : Memory) : (s.setPrgRam v).prgRam = v := rfl
@[simp] theorem State.setPrgRam_cart (s : State) (v : Memory) : (s.setPrgRam v).cart = s.cart := rfl
@[simp] theorem State.setPrgRam_ppu (s : State) (v : Memory) : (s.setPrgRam v).ppu = s.ppu := rfl
@[simp] theorem State.setPrgRam_pads (s : State) (v : Memory) : (s.setPrgRam v).pads = s.pads := rfl
@[simp] theorem State.setPrgRam_draws (s : State) (v : Memory) : (s.setPrgRam v).draws = s.draws := rfl
@[simp] theorem State.setPrgRam_params (s : State) (v : Memory) : (s.setPrgRam v).params = s.params := rfl
@[simp] theorem State.setPrgRam_phase (s : State) (v : Memory) : (s.setPrgRam v).phase = s.phase := rfl

@[simp] theorem State.setCart_a (s : State) (v : Cartridge) : (s.setCart v).a = s.a := rfl
@[simp] theorem State.setCart_x (s : State) (v : Cartridge) : (s.setCart v).x = s.x := rfl
@[simp] theorem State.setCart_y (s : State) (v : Cartridge) : (s.setCart v).y = s.y := rfl
@[simp] theorem State.setCart_sp (s : State) (v : Cartridge) : (s.setCart v).sp = s.sp := rfl
@[simp] theorem State.setCart_pc (s : State) (v : Cartridge) : (s.setCart v).pc = s.pc := rfl
@[simp] theorem State.setCart_p (s : State) (v : Cartridge) : (s.setCart v).p = s.p := rfl
@[simp] theorem State.setCart_cycles (s : State) (v : Cartridge) : (s.setCart v).cycles = s.cycles := rfl
@[simp] theorem State.setCart_totalCycles (s : State) (v : Cartridge) : (s.setCart v).totalCycles = s.totalCycles := rfl
@[simp] theorem State.setCart_halted (s : State) (v : Cartridge) : (s.setCart v).halted = s.halted := rfl
@[simp] theorem State.setCart_nmiPending (s : State) (v : Cartridge) : (s.setCart v).nmiPending = s.nmiPending := rfl
@[simp] theorem State.setCart_irqPending (s : State) (v : Cartridge) : (s.setCart v).irqPending = s.irqPending := rfl
@[simp] theorem State.setCart_ram (s : State) (v : Cartridge) : (s.setCart v).ram = s.ram := rfl
@[simp] theorem State.setCart_prgRam (s : State) (v : Cartridge) : (s.setCart v).prgRam = s.prgRam := rfl
@[simp] theorem State.setCart_cart (s : State) (v : Cartridge) : (s.setCart v).cart = v := rfl
@[simp] theorem State.setCart_ppu (s : State) (v : Cartridge) : (s.setCart v).ppu = s.ppu := rfl
@[simp] theorem State.setCart_pads (s : State) (v : Cartridge) : (s.setCart v).pads = s.pads := rfl
@[simp] theorem State.setCart_draws (s : State) (v : Cartridge) : (s.setCart v).draws = s.draws := rfl
@[simp] theorem State.setCart_params (s : State) (v : Cartridge) : (s.setCart v).params = s.params := rfl
@[simp] theorem State.setCart_phase (s : State) (v : Cartridge) : (s.setCart v).phase = s.phase := rfl

@[simp] theorem State.setPpu_a (s : State) (v : Ppu) : (s.setPpu v).a = s.a := rfl
@[simp] theorem State.setPpu_x (s : State) (v : Ppu) : (s.setPpu v).x = s.x := rfl
@[simp] theorem State.setPpu_y (s : State) (v : Ppu) : (s.setPpu v).y = s.y := rfl
@[simp] theorem State.setPpu_sp (s : State) (v : Ppu) : (s.setPpu v).sp = s.sp := rfl
@[simp] theorem State.setPpu_pc (s : State) (v : Ppu) : (s.setPpu v).pc = s.pc := rfl
@[simp] theorem State.setPpu_p (s : State) (v : Ppu) : (s.setPpu v).p = s.p := rfl
@[simp] theorem State.setPpu_cycles (s : State) (v : Ppu) : (s.setPpu v).cycles = s.cycles := rfl
@[simp] theorem State.setPpu_totalCycles (s : State) (v : Ppu) : (s.setPpu v).totalCycles = s.totalCycles := rfl
@[simp] theorem State.setPpu_halted (s : State) (v : Ppu) : (s.setPpu v).halted = s.halted := rfl
@[simp] theorem State.setPpu_nmiPending (s : State) (v : Ppu) : (s.setPpu v).nmiPending = s.nmiPending := rfl
@[simp] theorem State.setPpu_irqPending (s : State) (v : Ppu) : (s.setPpu v).irqPending = s.irqPending := rfl
@[simp] theorem State.setPpu_ram (s : State) (v : Ppu) : (s.setPpu v).ram = s.ram := rfl
@[simp] theorem State.setPpu_prgRam (s : State) (v : Ppu) : (s.setPpu v).prgRam = s.prgRam := rfl
@[simp] theorem State.setPpu_cart (s : State) (v : Ppu) : (s.setPpu v).cart = s.cart := rfl
@[simp] theorem State.setPpu_ppu (s : State) (v : Ppu) : (s.setPpu v).ppu = v := rfl
@[simp] theorem State.setPpu_pads (s : State) (v : Ppu) : (s.setPpu v).pads = s.pads := rfl
@[simp] theorem State.setPpu_draws (s : State) (v : Ppu) : (s.setPpu v).draws = s.draws := rfl
@[simp] theorem State.setPpu_params (s : State) (v : Ppu) : (s.setPpu v).params = s.params := rfl
@[simp] theorem State.setPpu_phase (s : State) (v : Ppu) : (s.setPpu v).phase = s.phase := rfl

@[simp] theorem State.setPads_a (s : State) (v : Controllers) : (s.setPads v).a = s.a := rfl
@[simp] theorem State.setPads_x (s : State) (v : Controllers) : (s.setPads v).x = s.x := rfl
@[simp] theorem State.setPads_y (s : State) (v : Controllers) : (s.setPads v).y = s.y := rfl
@[simp] theorem State.setPads_sp (s : State) (v : Controllers) : (s.setPads v).sp = s.sp := rfl
@[simp] theorem State.setPads_pc (s : State) (v : Controllers) : (s.setPads v).pc = s.pc := rfl
@[simp] theorem State.setPads_p (s : State) (v : Controllers) : (s.setPads v).p = s.p := rfl
@[simp] theorem State.setPads_cycles (s : State) (v : Controllers) : (s.setPads v).cycles = s.cycles := rfl
@[simp] theorem State.setPads_totalCycles (s : State) (v : Controllers) : (s.setPads v).totalCycles = s.totalCycles := rfl
@[simp] theorem State.setPads_halted (s : State) (v : Controllers) : (s.setPads v).halted = s.halted := rfl
@[simp] theorem State.setPads_nmiPending (s : State) (v : Controllers) : (s.setPads v).nmiPending = s.nmiPending := rfl
@[simp] theorem State.setPads_irqPending (s : State) (v : Controllers) : (s.setPads v).irqPending = s.irqPending := rfl
@[simp] theorem State.setPads_ram (s : State) (v : Controllers) : (s.setPads v).ram = s.ram := rfl
@[simp] theorem State.setPads_prgRam (s : State) (v : Controllers) : (s.setPads v).prgRam = s.prgRam := rfl
@[simp] theorem State.setPads_cart (s : State) (v : Controllers) : (s.setPads v).cart = s.cart := rfl
@[simp] theorem State.setPads_ppu (s : State) (v : Controllers) : (s.setPads v).ppu = s.ppu := rfl
@[simp] theorem State.setPads_pads (s : State) (v : Controllers) : (s.setPads v).pads = v := rfl
@[simp] theorem State.setPads_draws (s : State) (v : Controllers) : (s.setPads v).draws = s.draws := rfl
@[simp] theorem State.setPads_params (s : State) (v : Controllers) : (s.setPads v).params = s.params := rfl
@[simp] theorem State.setPads_phase (s : State) (v : Controllers) : (s.setPads v).phase = s.phase := rfl

@[simp] theorem State.setPhase_a (s : State) (v : Phase) : (s.setPhase v).a = s.a := rfl
@[simp] theorem State.setPhase_x (s : State) (v : Phase) : (s.setPhase v).x = s.x := rfl
@[simp] theorem State.setPhase_y (s : State) (v : Phase) : (s.setPhase v).y = s.y := rfl
@[simp] theorem State.setPhase_sp (s : State) (v : Phase) : (s.setPhase v).sp = s.sp := rfl
@[simp] theorem State.setPhase_pc (s : State) (v : Phase) : (s.setPhase v).pc = s.pc := rfl
@[simp] theorem State.setPhase_p (s : State) (v : Phase) : (s.setPhase v).p = s.p := rfl
@[simp] theorem State.setPhase_cycles (s : State) (v : Phase) : (s.setPhase v).cycles = s.cycles := rfl
@[simp] theorem State.setPhase_totalCycles (s : State) (v : Phase) : (s.setPhase v).totalCycles = s.totalCycles := rfl
@[simp] theorem State.setPhase_halted (s : State) (v : Phase) : (s.setPhase v).halted = s.halted := rfl
@[simp] theorem State.setPhase_nmiPending (s : State) (v : Phase) : (s.setPhase v).nmiPending = s.nmiPending := rfl
@[simp] theorem State.setPhase_irqPending (s : State) (v : Phase) : (s.setPhase v).irqPending = s.irqPending := rfl
@[simp] theorem State.setPhase_ram (s : State) (v : Phase) : (s.setPhase v).ram = s.ram := rfl
@[simp] theorem State.setPhase_prgRam (s : State) (v : Phase) : (s.setPhase v).prgRam = s.prgRam := rfl
@[simp] theorem State.setPhase_cart (s : State) (v : Phase) : (s.setPhase v).cart = s.cart := rfl
@[simp] theorem State.setPhase_ppu (s : State) (v : Phase) : (s.setPhase v).ppu = s.ppu := rfl
@[simp] theorem State.setPhase_pads (s : State) (v : Phase) : (s.setPhase v).pads = s.pads := rfl
@[simp] theorem State.setPhase_draws (s : State) (v : Phase) : (s.setPhase v).draws = s.draws := rfl
@[simp] theorem State.setPhase_params (s : State) (v : Phase) : (s.setPhase v).params = s.params := rfl
@[simp] theorem State.setPhase_phase (s : State) (v : Phase) : (s.setPhase v).phase = v := rfl

@[simp] theorem State.setDraws_a (s : State) (v : Nat) : (s.setDraws v).a = s.a := rfl
@[simp] theorem State.setDraws_x (s : State) (v : Nat) : (s.setDraws v).x = s.x := rfl
@[simp] theorem State.setDraws_y (s : State) (v : Nat) : (s.setDraws v).y = s.y := rfl
@[simp] theorem State.setDraws_sp (s : State) (v : Nat) : (s.setDraws v).sp = s.sp := rfl
@[simp] theorem State.setDraws_pc (s : State) (v : Nat) : (s.setDraws v).pc = s.pc := rfl
@[simp] theorem State.setDraws_p (s : State) (v : Nat) : (s.setDraws v).p = s.p := rfl
@[simp] theorem State.setDraws_cycles (s : State) (v : Nat) : (s.setDraws v).cycles = s.cycles := rfl
@[simp] theorem State.setDraws_totalCycles (s : State) (v : Nat) : (s.setDraws v).totalCycles = s.totalCycles := rfl
@[simp] theorem State.setDraws_halted (s : State) (v : Nat) : (s.setDraws v).halted = s.halted := rfl
@[simp] theorem State.setDraws_nmiPending (s : State) (v : Nat) : (s.setDraws v).nmiPending = s.nmiPending := rfl
@[simp] theorem State.setDraws_irqPending (s : State) (v : Nat) : (s.setDraws v).irqPending = s.irqPending := rfl
@[simp] theorem State.setDraws_ram (s : State) (v : Nat) : (s.setDraws v).ram = s.ram := rfl
@[simp] theorem State.setDraws_prgRam (s : State) (v : Nat) : (s.setDraws v).prgRam = s.prgRam := rfl
@[simp] theorem State.setDraws_cart (s : State) (v : Nat) : (s.setDraws v).cart = s.cart := rfl
@[simp] theorem State.setDraws_ppu (s : State) (v : Nat) : (s.setDraws v).ppu = s.ppu := rfl
@[simp] theorem State.setDraws_pads (s : State) (v : Nat) : (s.setDraws v).pads = s.pads := rfl
@[simp] theorem State.setDraws_draws (s : State) (v : Nat) : (s.setDraws v).draws = v := rfl
@[simp] theorem State.setDraws_params (s : State) (v : Nat) : (s.setDraws v).params = s.params := rfl
@[simp] theorem State.setDraws_phase (s : State) (v : Nat) : (s.setDraws v).phase = s.phase := rfl

@[simp] theorem State.charge_a (s : State) (n : Nat) : (s.charge n).a = s.a := rfl
@[simp] theorem State.charge_x (s : State) (n : Nat) : (s.charge n).x = s.x := rfl
@[simp] theorem State.charge_y (s : State) (n : Nat) : (s.charge n).y = s.y := rfl
@[simp] theorem State.charge_sp (s : State) (n : Nat) : (s.charge n).sp = s.sp := rfl
@[simp] theorem State.charge_pc (s : State) (n : Nat) : (s.charge n).pc = s.pc := rfl
@[simp] theorem State.charge_p (s : State) (n : Nat) : (s.charge n).p = s.p := rfl
@[simp] theorem State.charge_cycles (s : State) (n : Nat) : (s.charge n).cycles = s.cycles + n := rfl
@[simp] theorem State.charge_totalCycles (s : State) (n : Nat) : (s.charge n).totalCycles = s.totalCycles := rfl
@[simp] theorem State.charge_halted (s : State) (n : Nat) : (s.charge n).halted = s.halted := rfl
@[simp] theorem State.charge_nmiPending (s : State) (n : Nat) : (s.charge n).nmiPending = s.nmiPending := rfl
@[simp] theorem State.charge_irqPending (s : State) (n : Nat) : (s.charge n).irqPending = s.irqPending := rfl
@[simp] theorem State.charge_ram (s : State) (n : Nat) : (s.charge n).ram = s.ram := rfl
@[simp] theorem State.charge_prgRam (s : State) (n : Nat) : (s.charge n).prgRam = s.prgRam := rfl
@[simp] theorem State.charge_cart (s : State) (n : Nat) : (s.charge n).cart = s.cart := rfl
@[simp] theorem State.charge_ppu (s : State) (n : Nat) : (s.charge n).ppu = s.ppu := rfl
@[simp] theorem State.charge_pads (s : State) (n : Nat) : (s.charge n).pads = s.pads := rfl
@[simp] theorem State.charge_draws (s : State) (n : Nat) : (s.charge n).draws = s.draws := rfl
@[simp] theorem State.charge_params (s : State) (n : Nat) : (s.charge n).params = s.params := rfl
@[simp] theorem State.charge_phase (s : State) (n : Nat) : (s.charge n).phase = s.phase := rfl

end Sys2Proof.Machine
end

