-- ==== Sys2Proof/Laws/Bus.lean ====
section
/-! SUPPORT. What a bus access can change, said once for each primitive: a read changes the PPU, the controllers and the
draw counter only; a write, beside those, the memories, CHR and `cycles`. -/

namespace Sys2Proof.Machine

@[simp] theorem openBus_snd (s : State) : (openBus s).2 = s.setDraws (s.draws + 1) := rfl

/-- t is s but for the PPU, the controllers and the draws: all a read can change (R80). -/
structure ReadFrame (s t : State) : Prop where
  a : t.a = s.a
  x : t.x = s.x
  y : t.y = s.y
  sp : t.sp = s.sp
  pc : t.pc = s.pc
  p : t.p = s.p
  cycles : t.cycles = s.cycles
  totalCycles : t.totalCycles = s.totalCycles
  halted : t.halted = s.halted
  nmiPending : t.nmiPending = s.nmiPending
  irqPending : t.irqPending = s.irqPending
  ram : t.ram = s.ram
  prgRam : t.prgRam = s.prgRam
  cart : t.cart = s.cart
  params : t.params = s.params
  phase : t.phase = s.phase

theorem ReadFrame.rfl {s : State} : ReadFrame s s := by constructor <;> exact Eq.refl _

theorem ReadFrame.trans {s t u : State} (h : ReadFrame s t) (h' : ReadFrame t u) : ReadFrame s u :=
  ⟨h'.a.trans h.a, h'.x.trans h.x, h'.y.trans h.y, h'.sp.trans h.sp, h'.pc.trans h.pc, h'.p.trans h.p, h'.cycles.trans h.cycles, h'.totalCycles.trans h.totalCycles, h'.halted.trans h.halted, h'.nmiPending.trans h.nmiPending, h'.irqPending.trans h.irqPending, h'.ram.trans h.ram, h'.prgRam.trans h.prgRam, h'.cart.trans h.cart, h'.params.trans h.params, h'.phase.trans h.phase⟩

theorem ReadFrame.setPpu {s t : State} (h : ReadFrame s t) (ppu : Ppu) : ReadFrame s (t.setPpu ppu) :=
  ⟨h.a, h.x, h.y, h.sp, h.pc, h.p, h.cycles, h.totalCycles, h.halted, h.nmiPending, h.irqPending, h.ram, h.prgRam, h.cart, h.params, h.phase⟩

theorem ReadFrame.setPads {s t : State} (h : ReadFrame s t) (pads : Controllers) : ReadFrame s (t.setPads pads) :=
  ⟨h.a, h.x, h.y, h.sp, h.pc, h.p, h.cycles, h.totalCycles, h.halted, h.nmiPending, h.irqPending, h.ram, h.prgRam, h.cart, h.params, h.phase⟩

theorem ReadFrame.setDraws {s t : State} (h : ReadFrame s t) (n : Nat) : ReadFrame s (t.setDraws n) :=
  ⟨h.a, h.x, h.y, h.sp, h.pc, h.p, h.cycles, h.totalCycles, h.halted, h.nmiPending, h.irqPending, h.ram, h.prgRam, h.cart, h.params, h.phase⟩

theorem ppuRegRead_frame (r : Nat) (s : State) : ReadFrame s (ppuRegRead r s).2 := by
  unfold ppuRegRead
  split
  · exact (ReadFrame.rfl.setDraws _).setPpu _
  · exact ReadFrame.rfl
  · exact ReadFrame.rfl.setPpu _
  · exact ReadFrame.rfl.setDraws _

theorem readTarget_frame (tgt : BusTarget) (s : State) : ReadFrame s (readTarget tgt s).2 := by
  unfold readTarget
  split
  · exact ReadFrame.rfl
  · exact ppuRegRead_frame _ s
  · exact (ReadFrame.rfl.setDraws _).setPads _
  · exact (ReadFrame.rfl.setDraws _).setPads _
  · exact ReadFrame.rfl.setDraws _
  · exact ReadFrame.rfl.setDraws _
  · split
    · exact ReadFrame.rfl
    · exact ReadFrame.rfl.setDraws _
  · exact ReadFrame.rfl

theorem memRead_frame (a : Addr) (s : State) : ReadFrame s (memRead a s).2 := readTarget_frame _ s

@[simp] theorem memRead_a (a : Addr) (s : State) : (memRead a s).2.a = s.a := (memRead_frame a s).a
@[simp] theorem memRead_x (a : Addr) (s : State) : (memRead a s).2.x = s.x := (memRead_frame a s).x
@[simp] theorem memRead_y (a : Addr) (s : State) : (memRead a s).2.y = s.y := (memRead_frame a s).y
@[simp] theorem memRead_sp (a : Addr) (s : State) : (memRead a s).2.sp = s.sp := (memRead_frame a s).sp
@[simp] theorem memRead_pc (a : Addr) (s : State) : (memRead a s).2.pc = s.pc := (memRead_frame a s).pc
@[simp] theorem memRead_p (a : Addr) (s : State) : (memRead a s).2.p = s.p := (memRead_frame a s).p
@[simp] theorem memRead_cycles (a : Addr) (s : State) : (memRead a s).2.cycles = s.cycles := (memRead_frame a s).cycles
@[simp] theorem memRead_totalCycles (a : Addr) (s : State) : (memRead a s).2.totalCycles = s.totalCycles := (memRead_frame a s).totalCycles
@[simp] theorem memRead_halted (a : Addr) (s : State) : (memRead a s).2.halted = s.halted := (memRead_frame a s).halted
@[simp] theorem memRead_nmiPending (a : Addr) (s : State) : (memRead a s).2.nmiPending = s.nmiPending := (memRead_frame a s).nmiPending
@[simp] theorem memRead_irqPending (a : Addr) (s : State) : (memRead a s).2.irqPending = s.irqPending := (memRead_frame a s).irqPending
@[simp] theorem memRead_ram (a : Addr) (s : State) : (memRead a s).2.ram = s.ram := (memRead_frame a s).ram
@[simp] theorem memRead_prgRam (a : Addr) (s : State) : (memRead a s).2.prgRam = s.prgRam := (memRead_frame a s).prgRam
@[simp] theorem memRead_cart (a : Addr) (s : State) : (memRead a s).2.cart = s.cart := (memRead_frame a s).cart
@[simp] theorem memRead_params (a : Addr) (s : State) : (memRead a s).2.params = s.params := (memRead_frame a s).params
@[simp] theorem memRead_phase (a : Addr) (s : State) : (memRead a s).2.phase = s.phase := (memRead_frame a s).phase

theorem read16_frame (a : Addr) (s : State) : ReadFrame s (read16 a s).2 :=
  (memRead_frame a s).trans (memRead_frame _ _)

theorem read16Page_frame (a : Addr) (s : State) : ReadFrame s (read16Page a s).2 :=
  (memRead_frame a s).trans (memRead_frame _ _)

/-- One byte of the copy: a read, and its store in OAM. -/
theorem dmaCopy_succ (page : Byte) (n i : Nat) (s : State) :
    dmaCopy page (n + 1) i s =
      dmaCopy page n (i + 1) ((memRead (w16 page (BitVec.ofNat 8 i)) s).2.setPpu
        { (memRead (w16 page (BitVec.ofNat 8 i)) s).2.ppu with
          oam := (memRead (w16 page (BitVec.ofNat 8 i)) s).2.ppu.oam.write i
            (memRead (w16 page (BitVec.ofNat 8 i)) s).1 }) := rfl

theorem dmaCopy_frame (page : Byte) (n i : Nat) (s : State) : ReadFrame s (dmaCopy page n i s) := by
  induction n generalizing i s with
  | zero => exact ReadFrame.rfl
  | succ n ih =>
    rw [dmaCopy_succ]
    exact ((memRead_frame _ s).setPpu _).trans (ih _ _)

/-- t is s but for the memories, CHR, the PPU, the controllers, the draws and `cycles`: all a write can change. -/
structure WriteFrame (s t : State) : Prop where
  a : t.a = s.a
  x : t.x = s.x
  y : t.y = s.y
  sp : t.sp = s.sp
  pc : t.pc = s.pc
  p : t.p = s.p
  totalCycles : t.totalCycles = s.totalCycles
  halted : t.halted = s.halted
  nmiPending : t.nmiPending = s.nmiPending
  irqPending : t.irqPending = s.irqPending
  params : t.params = s.params
  phase : t.phase = s.phase
  cart : ∃ chr, t.cart = { s.cart with chr := chr }

theorem WriteFrame.rfl {s : State} : WriteFrame s s :=
  ⟨Eq.refl _, Eq.refl _, Eq.refl _, Eq.refl _, Eq.refl _, Eq.refl _, Eq.refl _, Eq.refl _, Eq.refl _, Eq.refl _, Eq.refl _, Eq.refl _, s.cart.chr, Eq.refl _⟩

theorem ReadFrame.toWrite {s t : State} (h : ReadFrame s t) : WriteFrame s t :=
  ⟨h.a, h.x, h.y, h.sp, h.pc, h.p, h.totalCycles, h.halted, h.nmiPending, h.irqPending, h.params, h.phase, s.cart.chr, h.cart⟩

theorem WriteFrame.trans {s t u : State} (h : WriteFrame s t) (h' : WriteFrame t u) : WriteFrame s u := by
  obtain ⟨c, hc⟩ := h.cart
  obtain ⟨c', hc'⟩ := h'.cart
  exact ⟨h'.a.trans h.a, h'.x.trans h.x, h'.y.trans h.y, h'.sp.trans h.sp, h'.pc.trans h.pc, h'.p.trans h.p, h'.totalCycles.trans h.totalCycles, h'.halted.trans h.halted, h'.nmiPending.trans h.nmiPending, h'.irqPending.trans h.irqPending, h'.params.trans h.params, h'.phase.trans h.phase, c', by rw [hc', hc]⟩

theorem WriteFrame.setPpu {s t : State} (h : WriteFrame s t) (v : Ppu) : WriteFrame s (t.setPpu v) :=
  ⟨h.a, h.x, h.y, h.sp, h.pc, h.p, h.totalCycles, h.halted, h.nmiPending, h.irqPending, h.params, h.phase, h.cart⟩

theorem WriteFrame.setPads {s t : State} (h : WriteFrame s t) (v : Controllers) : WriteFrame s (t.setPads v) :=
  ⟨h.a, h.x, h.y, h.sp, h.pc, h.p, h.totalCycles, h.halted, h.nmiPending, h.irqPending, h.params, h.phase, h.cart⟩

theorem WriteFrame.setRam {s t : State} (h : WriteFrame s t) (v : Memory) : WriteFrame s (t.setRam v) :=
  ⟨h.a, h.x, h.y, h.sp, h.pc, h.p, h.totalCycles, h.halted, h.nmiPending, h.irqPending, h.params, h.phase, h.cart⟩

theorem WriteFrame.setPrgRam {s t : State} (h : WriteFrame s t) (v : Memory) : WriteFrame s (t.setPrgRam v) :=
  ⟨h.a, h.x, h.y, h.sp, h.pc, h.p, h.totalCycles, h.halted, h.nmiPending, h.irqPending, h.params, h.phase, h.cart⟩

theorem WriteFrame.charge {s t : State} (h : WriteFrame s t) (v : Nat) : WriteFrame s (t.charge v) :=
  ⟨h.a, h.x, h.y, h.sp, h.pc, h.p, h.totalCycles, h.halted, h.nmiPending, h.irqPending, h.params, h.phase, h.cart⟩

theorem WriteFrame.setChr {s t : State} (h : WriteFrame s t) (chr : Memory) :
    WriteFrame s (t.setCart { t.cart with chr := chr }) := by
  obtain ⟨c, hc⟩ := h.cart
  exact ⟨h.a, h.x, h.y, h.sp, h.pc, h.p, h.totalCycles, h.halted, h.nmiPending, h.irqPending, h.params, h.phase, chr, by simp [hc]⟩

theorem ppuWrite_frame (a : PpuAddr) (b : Byte) (s : State) : WriteFrame s (ppuWrite a b s) := by
  unfold ppuWrite
  split
  · split
    · exact WriteFrame.rfl.setChr _
    · exact WriteFrame.rfl
  · exact WriteFrame.rfl.setPpu _
  · exact WriteFrame.rfl.setPpu _

theorem ppuRegWrite_frame (r : Nat) (b : Byte) (s : State) : WriteFrame s (ppuRegWrite r b s) := by
  unfold ppuRegWrite
  split
  all_goals first
    | exact WriteFrame.rfl.setPpu _
    | exact WriteFrame.rfl
    | exact (ppuWrite_frame _ b s).setPpu _

theorem oamDma_frame (page : Byte) (s : State) : WriteFrame s (oamDma page s) :=
  (dmaCopy_frame page 256 0 s).toWrite.charge _

theorem writeTarget_frame (tgt : BusTarget) (b : Byte) (s : State) : WriteFrame s (writeTarget tgt b s) := by
  unfold writeTarget
  split
  · exact WriteFrame.rfl.setRam _
  · exact ppuRegWrite_frame _ b s
  · exact oamDma_frame b s
  · exact WriteFrame.rfl.setPads _
  · exact WriteFrame.rfl
  · exact WriteFrame.rfl
  · split
    · exact WriteFrame.rfl.setPrgRam _
    · exact WriteFrame.rfl
  · exact WriteFrame.rfl

theorem memWrite_frame (a : Addr) (b : Byte) (s : State) : WriteFrame s (memWrite a b s) := writeTarget_frame _ b s

@[simp] theorem memWrite_a (a : Addr) (b : Byte) (s : State) : (memWrite a b s).a = s.a := (memWrite_frame a b s).a
@[simp] theorem memWrite_x (a : Addr) (b : Byte) (s : State) : (memWrite a b s).x = s.x := (memWrite_frame a b s).x
@[simp] theorem memWrite_y (a : Addr) (b : Byte) (s : State) : (memWrite a b s).y = s.y := (memWrite_frame a b s).y
@[simp] theorem memWrite_sp (a : Addr) (b : Byte) (s : State) : (memWrite a b s).sp = s.sp := (memWrite_frame a b s).sp
@[simp] theorem memWrite_pc (a : Addr) (b : Byte) (s : State) : (memWrite a b s).pc = s.pc := (memWrite_frame a b s).pc
@[simp] theorem memWrite_p (a : Addr) (b : Byte) (s : State) : (memWrite a b s).p = s.p := (memWrite_frame a b s).p
@[simp] theorem memWrite_totalCycles (a : Addr) (b : Byte) (s : State) : (memWrite a b s).totalCycles = s.totalCycles := (memWrite_frame a b s).totalCycles
@[simp] theorem memWrite_halted (a : Addr) (b : Byte) (s : State) : (memWrite a b s).halted = s.halted := (memWrite_frame a b s).halted
@[simp] theorem memWrite_nmiPending (a : Addr) (b : Byte) (s : State) : (memWrite a b s).nmiPending = s.nmiPending := (memWrite_frame a b s).nmiPending
@[simp] theorem memWrite_irqPending (a : Addr) (b : Byte) (s : State) : (memWrite a b s).irqPending = s.irqPending := (memWrite_frame a b s).irqPending
@[simp] theorem memWrite_params (a : Addr) (b : Byte) (s : State) : (memWrite a b s).params = s.params := (memWrite_frame a b s).params
@[simp] theorem memWrite_phase (a : Addr) (b : Byte) (s : State) : (memWrite a b s).phase = s.phase := (memWrite_frame a b s).phase

theorem busDecode_ram {a : Addr} (h : a.toNat < 0x2000) : busDecode a = .ram (a.toNat % 0x800) := by
  have hk : a.toNat / 0x2000 = 0 := by omega
  unfold busDecode; rw [hk]; rfl

theorem busDecode_ppu {a : Addr} (h : 0x2000 ≤ a.toNat) (h' : a.toNat < 0x4000) :
    busDecode a = .ppuReg (a.toNat % 8) := by
  have hk : a.toNat / 0x2000 = 1 := by omega
  unfold busDecode; rw [hk]; rfl

theorem busDecode_io {a : Addr} (h : 0x4000 ≤ a.toNat) (h' : a.toNat < 0x6000) : busDecode a = ioDecode a.toNat := by
  have hk : a.toNat / 0x2000 = 2 := by omega
  unfold busDecode; rw [hk]; rfl

theorem busDecode_prgRam {a : Addr} (h : 0x6000 ≤ a.toNat) (h' : a.toNat < 0x8000) :
    busDecode a = .prgRam (a.toNat % 0x2000) := by
  have hk : a.toNat / 0x2000 = 3 := by omega
  unfold busDecode; rw [hk]; rfl

theorem busDecode_rom {a : Addr} (h : 0x8000 ≤ a.toNat) :
    busDecode a = .prgRom (a.toNat / 0x2000 - 4) (a.toNat % 0x2000) := by
  unfold busDecode; split <;> first | rfl | omega

/-- A read of internal RAM (R72). -/
theorem memRead_of_ram {a : Addr} (h : a.toNat < 0x2000) (s : State) :
    memRead a s = (s.ram.read (a.toNat % 0x800), s) := by
  simp only [memRead, busDecode_ram h, readTarget]

/-- A read of program ROM (R77). -/
theorem memRead_of_rom {a : Addr} (h : 0x8000 ≤ a.toNat) (s : State) :
    memRead a s = (s.cart.prg.read (prgIndex s.cart (a.toNat / 0x2000 - 4) (a.toNat % 0x2000)), s) := by
  simp only [memRead, busDecode_rom h, readTarget]

/-- A write of internal RAM (R72). -/
theorem memWrite_of_ram {a : Addr} (h : a.toNat < 0x2000) (b : Byte) (s : State) :
    memWrite a b s = s.setRam (s.ram.write (a.toNat % 0x800) b) := by
  simp only [memWrite, busDecode_ram h, writeTarget]

/-- A write of program ROM is ignored (R78). -/
theorem memWrite_of_rom {a : Addr} (h : 0x8000 ≤ a.toNat) (b : Byte) (s : State) : memWrite a b s = s := by
  simp only [memWrite, busDecode_rom h, writeTarget]

end Sys2Proof.Machine
end

