-- ==== Sys2Proof/Laws/Decode.lean ====
section
/-! SUPPORT. What the decoder reads, by the number of operand bytes of the opcode's mode, and the byte splitting of
16-bit operands. -/

namespace Sys2Proof

/-- A word is its high byte over its low byte. -/
@[simp] theorem w16_hi_lo (a : Addr) : w16 (hi a) (lo a) = a := by
  apply BitVec.eq_of_toNat_eq
  simp only [w16, hi, lo, BitVec.toNat_append, BitVec.toNat_setWidth, BitVec.toNat_ushiftRight]
  have := a.isLt
  rw [← Nat.shiftLeft_add_eq_or_of_lt (by omega)]
  simp only [Nat.shiftLeft_eq, Nat.shiftRight_eq_div_pow]
  omega

@[simp] theorem lo_w16 (h l : Byte) : lo (w16 h l) = l := by
  apply BitVec.eq_of_toNat_eq
  simp only [w16, lo, BitVec.toNat_append, BitVec.toNat_setWidth]
  rw [← Nat.shiftLeft_add_eq_or_of_lt l.isLt]
  have := l.isLt
  have := h.isLt
  simp only [Nat.shiftLeft_eq]
  omega

@[simp] theorem hi_w16 (h l : Byte) : hi (w16 h l) = h := by
  apply BitVec.eq_of_toNat_eq
  simp only [w16, hi, BitVec.toNat_append, BitVec.toNat_setWidth, BitVec.toNat_ushiftRight]
  rw [← Nat.shiftLeft_add_eq_or_of_lt l.isLt]
  have := l.isLt
  have := h.isLt
  simp only [Nat.shiftLeft_eq, Nat.shiftRight_eq_div_pow]
  omega

/-- A one-byte instruction. -/
theorem decode_none {op : Byte} (h : (descriptor op).mode.operandBytes = 0) (rest : List Byte) :
    decode (op :: rest) = .ok (instrOf op 0 0, rest) := by
  simp only [decode, h]

/-- A two-byte instruction. -/
theorem decode_one {op : Byte} (h : (descriptor op).mode.operandBytes = 1) (l : Byte) (rest : List Byte) :
    decode (op :: l :: rest) = .ok (instrOf op l 0, rest) := by
  simp only [decode, h]

/-- A three-byte instruction. -/
theorem decode_two {op : Byte} (h : (descriptor op).mode.operandBytes = 2) (l hb : Byte) (rest : List Byte) :
    decode (op :: l :: hb :: rest) = .ok (instrOf op l hb, rest) := by
  simp only [decode, h]

/-- A data operand is the one its own bytes stand for. -/
theorem dataOperand_bytes (o : Operand) :
    (dataOperand o.mode (o.bytes.getD 0 0) (o.bytes.getD 1 0)).getD .acc = o := by
  cases o <;> simp [dataOperand, Operand.mode, Operand.bytes, wordBytes]

/-- What the decoder reads from an opcode byte and the bytes of an operand of its mode. -/
theorem decode_operand (op : Byte) (m : Mnemonic) (o : Operand) (hm : (descriptor op).mnemonic = m)
    (hd : (descriptor op).mode = o.mode) (rest : List Byte) :
    decode (op :: (o.bytes ++ rest)) =
      .ok (assemble m o.mode op (o.bytes.getD 0 0) (o.bytes.getD 1 0), rest) := by
  cases o
  case acc => exact (decode_none (by rw [hd]; rfl) _).trans (by simp only [instrOf, hm, hd]; rfl)
  case abs a => exact (decode_two (by rw [hd]; rfl) _ _ _).trans (by simp only [instrOf, hm, hd]; rfl)
  case abx a => exact (decode_two (by rw [hd]; rfl) _ _ _).trans (by simp only [instrOf, hm, hd]; rfl)
  case aby a => exact (decode_two (by rw [hd]; rfl) _ _ _).trans (by simp only [instrOf, hm, hd]; rfl)
  all_goals exact (decode_one (by rw [hd]; rfl) _ _).trans (by simp only [instrOf, hm, hd]; rfl)

end Sys2Proof
end

