-- ==== Sys2Proof/Laws/Ops.lean ====
section
/-! SUPPORT. The shared operations in closed form: the stack lies in internal RAM, the vectors in program ROM, the
pointers of the indirect modes in the zero page. -/

namespace Sys2Proof.Machine

theorem stackAddr_toNat (sp : Byte) : (stackAddr sp).toNat = 0x100 + sp.toNat := by
  have := sp.isLt
  simp [stackAddr]
  omega

/-- `Push(v)` (R43). -/
theorem push_eq (b : Byte) (s : State) :
    push b s = (s.setRam (s.ram.write (0x100 + s.sp.toNat) b)).setSp (s.sp - 1) := by
  have := s.sp.isLt
  have hlt : (stackAddr s.sp).toNat < 0x2000 := by rw [stackAddr_toNat]; omega
  simp only [push, memWrite_of_ram hlt]
  rw [stackAddr_toNat, Nat.mod_eq_of_lt (by omega)]

/-- `Pull()` (R44). -/
theorem pull_eq (s : State) :
    pull s = (s.ram.read (0x100 + (s.sp + 1).toNat), s.setSp (s.sp + 1)) := by
  have := (s.sp + 1).isLt
  have hlt : (stackAddr (s.sp + 1)).toNat < 0x2000 := by rw [stackAddr_toNat]; omega
  simp only [pull, memRead_of_ram hlt]
  rw [stackAddr_toNat, Nat.mod_eq_of_lt (by omega)]
  rfl

/-- A 16-bit value pushed: high byte first (R311). -/
theorem push16_eq (w : Addr) (s : State) :
    push16 w s = (s.setRam ((s.ram.write (0x100 + s.sp.toNat) (hi w)).write (0x100 + (s.sp - 1).toNat) (lo w))).setSp
      (s.sp - 2) := by
  have h : s.sp - 1 - 1 = s.sp - 2 := by bv_omega
  simp only [push16, push_eq, State.setSp_sp, State.setSp_ram, State.setRam_ram]
  rw [h]; rfl

/-- A 16-bit value pulled: low byte first (R312). -/
theorem pull16_eq (s : State) :
    pull16 s = (w16 (s.ram.read (0x100 + (s.sp + 2).toNat)) (s.ram.read (0x100 + (s.sp + 1).toNat)),
      s.setSp (s.sp + 2)) := by
  have h : s.sp + 1 + 1 = s.sp + 2 := by bv_omega
  simp only [pull16, pull_eq, State.setSp_sp, State.setSp_ram]
  rw [h]; rfl

/-- A byte of program ROM by its CPU address (R77). -/
def romByte (s : State) (a : Addr) : Byte :=
  s.cart.prg.read (prgIndex s.cart (a.toNat / 0x2000 - 4) (a.toNat % 0x2000))

theorem memRead_romByte {a : Addr} (h : 0x8000 ≤ a.toNat) (s : State) : memRead a s = (romByte s a, s) :=
  memRead_of_rom h s

/-- A vector in program ROM (R81, R86). -/
theorem read16_of_rom {a : Addr} (h : 0x8000 ≤ a.toNat) (h' : 0x8000 ≤ (a + 1).toNat) (s : State) :
    read16 a s = (w16 (romByte s (a + 1)) (romByte s a), s) := by
  simp only [read16, memRead_romByte h, memRead_romByte h']

/-- Taking an interrupt, whole (R405, R314): three pushes, I set, pc from the vector. -/
theorem enterInterrupt_eq {vec : Addr} (h : 0x8000 ≤ vec.toNat) (h' : 0x8000 ≤ (vec + 1).toNat) (ret : Addr)
    (brk : Bool) (s : State) :
    enterInterrupt vec ret brk s =
      { s with
        ram := ((s.ram.write (0x100 + s.sp.toNat) (hi ret)).write (0x100 + (s.sp - 1).toNat) (lo ret)).write
          (0x100 + (s.sp - 2).toNat) (s.p.pack brk)
        sp := s.sp - 3
        p := { s.p with i := true }
        pc := w16 (romByte s (vec + 1)) (romByte s vec) } := by
  have h3 : s.sp - 2 - 1 = s.sp - 3 := by bv_omega
  simp only [enterInterrupt, push_eq, push16_eq, read16_of_rom h h']
  simp only [State.setSp_sp, State.setSp_ram, State.setRam_ram]
  rw [h3]; rfl

/-- Returning from an interrupt, whole (R313). -/
theorem returnFromInterrupt_eq (s : State) :
    returnFromInterrupt s =
      { s with
        p := Flags.unpack (s.ram.read (0x100 + (s.sp + 1).toNat))
        sp := s.sp + 3
        pc := w16 (s.ram.read (0x100 + (s.sp + 3).toNat)) (s.ram.read (0x100 + (s.sp + 2).toNat)) } := by
  have h2 : s.sp + 1 + 1 = s.sp + 2 := by bv_omega
  have h3 : s.sp + 1 + 2 = s.sp + 3 := by bv_omega
  simp only [returnFromInterrupt, pull_eq, pull16_eq, State.setSp_sp, State.setSp_ram, State.setP_sp, State.setP_ram]
  rw [h2, h3]; rfl

theorem zeroPage_toNat (b : Byte) : (zeroPage b).toNat = b.toNat := by
  have := b.isLt
  simp only [zeroPage, BitVec.toNat_setWidth]; omega

theorem nextInPage_zeroPage (b : Byte) : nextInPage (zeroPage b) = zeroPage (b + 1) := by
  revert b; decide +kernel

/-- A pointer in the zero page: both bytes stay there, and reading it changes nothing (R83, R153, R154). -/
theorem read16Page_zeroPage (b : Byte) (s : State) :
    read16Page (zeroPage b) s = (w16 (s.ram.read (b + 1).toNat) (s.ram.read b.toNat), s) := by
  have h := b.isLt
  have h' := (b + 1).isLt
  have hb : (zeroPage b).toNat < 0x2000 := by rw [zeroPage_toNat]; omega
  have hb' : (zeroPage (b + 1)).toNat < 0x2000 := by rw [zeroPage_toNat]; omega
  simp only [read16Page, nextInPage_zeroPage, memRead_of_ram hb, memRead_of_ram hb', zeroPage_toNat]
  rw [Nat.mod_eq_of_lt (by omega : b.toNat < 0x800), Nat.mod_eq_of_lt (by omega : (b + 1).toNat < 0x800)]

/-- Resolving an operand changes nothing: its pointers lie in the zero page. -/
@[simp] theorem resolve_snd (o : Operand) (s : State) : (resolve o s).2 = s := by
  cases o <;> simp [resolve, read16Page_zeroPage]

theorem readLoc_frame (loc : Loc) (s : State) : ReadFrame s (readLoc loc s).2 := by
  cases loc
  · exact ReadFrame.rfl
  · exact ReadFrame.rfl
  · exact memRead_frame _ s

theorem fetchByte_frame (s : State) : ReadFrame (s.setPc (s.pc + 1)) (fetchByte s).2 := by
  have h := memRead_frame s.pc s
  exact ⟨h.a, h.x, h.y, h.sp, rfl, h.p, h.cycles, h.totalCycles, h.halted, h.nmiPending, h.irqPending, h.ram, h.prgRam,
    h.cart, h.params, h.phase⟩

@[simp] theorem fetchByte_pc (s : State) : (fetchByte s).2.pc = s.pc + 1 := rfl

/-- Every answer of a CPU step, by the branch that gives it (R191). -/
theorem cpuStep_cases (s : State) :
    (s.halted = true ∧ cpuStep s = .next (s.charge 1)) ∨
    (s.halted = false ∧ s.nmiPending = true ∧ cpuStep s = execNmi s) ∨
    (s.halted = false ∧ s.nmiPending = false ∧ s.irqPending = true ∧ s.p.i = false ∧ cpuStep s = execIrq s) ∨
    (s.halted = false ∧ s.nmiPending = false ∧ (s.irqPending = false ∨ s.p.i = true) ∧
      cpuStep s = exec (fetchInstr s).1 (fetchInstr s).2) := by
  unfold cpuStep
  cases s.halted <;> cases s.nmiPending <;> cases s.irqPending <;> cases s.p.i <;> simp [exec]

/-- A started session is not refused for want of registers. -/
@[simp] theorem whenStarted_running {α : Type} {s : State} (h : s.phase = .running)
    (r : Host.Outcome α Fault Refusal) : whenStarted s r = r := by
  simp [whenStarted, h]

/-- Only a started session answers a next state. -/
theorem whenStarted_next {α : Type} {s : State} {r : Host.Outcome α Fault Refusal} {t : α}
    (h : whenStarted s r = .next t) : s.phase = .running ∧ r = .next t := by
  unfold whenStarted at h
  split at h <;> simp_all

/-- The step of a started session (R190). -/
theorem step_running {s : State} (h : s.phase = .running) :
    step s = Result.map endStep (cpuStep (s.setCycles 0)) := whenStarted_running h _

/-- A step that answers a next state: the session is started, and the CPU step's state with the end of the step (R190,
R202). -/
theorem step_next {s t : State} (h : step s = .next t) :
    s.phase = .running ∧ ∃ u, cpuStep (s.setCycles 0) = .next u ∧ t = endStep u := by
  obtain ⟨hp, h⟩ := whenStarted_next h
  refine ⟨hp, ?_⟩
  cases hc : cpuStep (s.setCycles 0) with
  | next u => rw [hc] at h; exact ⟨u, rfl, by simpa [Result.map] using h.symm⟩
  | fault r => rw [hc] at h; simp [Result.map] at h
  | refused r => rw [hc] at h; simp [Result.map] at h

/-- A read does not depend on pc. -/
theorem memRead_setPc (a pc : Addr) (s : State) :
    memRead a (s.setPc pc) = ((memRead a s).1, (memRead a s).2.setPc pc) := by
  unfold memRead
  generalize busDecode a = t
  unfold readTarget
  cases t
  case ppuReg r =>
    simp only [ppuRegRead]
    split <;> rfl
  case prgRam k =>
    have : (s.setPc pc).params = s.params := rfl
    simp only [this]
    cases s.params.prgRamMode <;> rfl
  all_goals rfl

end Sys2Proof.Machine
end

