-- ==== Sys2Proof/Laws/Ppu.lean ====
section
/-! SUPPORT. What the PPU's ticks can change: the PPU and the NMI line, nothing else (R420). -/

namespace Sys2Proof.Machine

/-- t is s but for the PPU and the NMI line: all a tick can change. -/
structure TickFrame (s t : State) : Prop where
  a : t.a = s.a
  x : t.x = s.x
  y : t.y = s.y
  sp : t.sp = s.sp
  pc : t.pc = s.pc
  p : t.p = s.p
  cycles : t.cycles = s.cycles
  totalCycles : t.totalCycles = s.totalCycles
  halted : t.halted = s.halted
  irqPending : t.irqPending = s.irqPending
  ram : t.ram = s.ram
  prgRam : t.prgRam = s.prgRam
  cart : t.cart = s.cart
  pads : t.pads = s.pads
  params : t.params = s.params
  phase : t.phase = s.phase
  draws : t.draws = s.draws

theorem TickFrame.rfl {s : State} : TickFrame s s := by constructor <;> exact Eq.refl _

theorem TickFrame.trans {s t u : State} (h : TickFrame s t) (h' : TickFrame t u) : TickFrame s u :=
  ⟨h'.a.trans h.a, h'.x.trans h.x, h'.y.trans h.y, h'.sp.trans h.sp, h'.pc.trans h.pc, h'.p.trans h.p, h'.cycles.trans h.cycles, h'.totalCycles.trans h.totalCycles, h'.halted.trans h.halted, h'.irqPending.trans h.irqPending, h'.ram.trans h.ram, h'.prgRam.trans h.prgRam, h'.cart.trans h.cart, h'.pads.trans h.pads, h'.params.trans h.params, h'.phase.trans h.phase, h'.draws.trans h.draws⟩

theorem TickFrame.setPpu {s t : State} (h : TickFrame s t) (ppu : Ppu) : TickFrame s (t.setPpu ppu) :=
  ⟨h.a, h.x, h.y, h.sp, h.pc, h.p, h.cycles, h.totalCycles, h.halted, h.irqPending, h.ram, h.prgRam, h.cart, h.pads, h.params, h.phase, h.draws⟩

theorem TickFrame.setNmi {s t : State} (h : TickFrame s t) (b : Bool) : TickFrame s (t.setNmi b) :=
  ⟨h.a, h.x, h.y, h.sp, h.pc, h.p, h.cycles, h.totalCycles, h.halted, h.irqPending, h.ram, h.prgRam, h.cart, h.pads, h.params, h.phase, h.draws⟩

theorem dotEvent_frame (s : State) : TickFrame s (dotEvent s) := by
  unfold dotEvent
  split
  · exact TickFrame.rfl.setPpu _
  · split
    · exact (TickFrame.rfl.setPpu _).setNmi _
    · split
      · exact TickFrame.rfl.setPpu _
      · exact TickFrame.rfl

theorem nextDot_frame (s : State) : TickFrame s (nextDot s) := by
  unfold nextDot nextLine
  split
  · split
    · exact (TickFrame.rfl.setPpu _).setPpu _
    · exact TickFrame.rfl.setPpu _
  · exact TickFrame.rfl.setPpu _

theorem ppuTick_frame (s : State) : TickFrame s (ppuTick s) := (dotEvent_frame s).trans (nextDot_frame _)

theorem ppuTicks_frame (n : Nat) (s : State) : TickFrame s (ppuTicks n s) := by
  induction n generalizing s with
  | zero => exact TickFrame.rfl
  | succ n ih => exact (ppuTick_frame s).trans (ih _)

@[simp] theorem ppuTicks_a (n : Nat) (s : State) : (ppuTicks n s).a = s.a := (ppuTicks_frame n s).a
@[simp] theorem ppuTicks_x (n : Nat) (s : State) : (ppuTicks n s).x = s.x := (ppuTicks_frame n s).x
@[simp] theorem ppuTicks_y (n : Nat) (s : State) : (ppuTicks n s).y = s.y := (ppuTicks_frame n s).y
@[simp] theorem ppuTicks_sp (n : Nat) (s : State) : (ppuTicks n s).sp = s.sp := (ppuTicks_frame n s).sp
@[simp] theorem ppuTicks_pc (n : Nat) (s : State) : (ppuTicks n s).pc = s.pc := (ppuTicks_frame n s).pc
@[simp] theorem ppuTicks_p (n : Nat) (s : State) : (ppuTicks n s).p = s.p := (ppuTicks_frame n s).p
@[simp] theorem ppuTicks_cycles (n : Nat) (s : State) : (ppuTicks n s).cycles = s.cycles := (ppuTicks_frame n s).cycles
@[simp] theorem ppuTicks_totalCycles (n : Nat) (s : State) : (ppuTicks n s).totalCycles = s.totalCycles := (ppuTicks_frame n s).totalCycles
@[simp] theorem ppuTicks_halted (n : Nat) (s : State) : (ppuTicks n s).halted = s.halted := (ppuTicks_frame n s).halted
@[simp] theorem ppuTicks_irqPending (n : Nat) (s : State) : (ppuTicks n s).irqPending = s.irqPending := (ppuTicks_frame n s).irqPending
@[simp] theorem ppuTicks_ram (n : Nat) (s : State) : (ppuTicks n s).ram = s.ram := (ppuTicks_frame n s).ram
@[simp] theorem ppuTicks_prgRam (n : Nat) (s : State) : (ppuTicks n s).prgRam = s.prgRam := (ppuTicks_frame n s).prgRam
@[simp] theorem ppuTicks_cart (n : Nat) (s : State) : (ppuTicks n s).cart = s.cart := (ppuTicks_frame n s).cart
@[simp] theorem ppuTicks_pads (n : Nat) (s : State) : (ppuTicks n s).pads = s.pads := (ppuTicks_frame n s).pads
@[simp] theorem ppuTicks_params (n : Nat) (s : State) : (ppuTicks n s).params = s.params := (ppuTicks_frame n s).params
@[simp] theorem ppuTicks_phase (n : Nat) (s : State) : (ppuTicks n s).phase = s.phase := (ppuTicks_frame n s).phase
@[simp] theorem ppuTicks_draws (n : Nat) (s : State) : (ppuTicks n s).draws = s.draws := (ppuTicks_frame n s).draws

theorem ppuTicks_succ (n : Nat) (s : State) : ppuTicks (n + 1) s = ppuTicks n (ppuTick s) := rfl

theorem ppuTicks_add (m n : Nat) (s : State) : ppuTicks (m + n) s = ppuTicks n (ppuTicks m s) := by
  induction m generalizing s with
  | zero => simp [ppuTicks]
  | succ m ih => rw [Nat.succ_add]; exact ih _

/-- The end of a step keeps everything but the total counter, the PPU and the NMI line. -/
theorem endStep_frame (s : State) : TickFrame (s.setTotalCycles (s.totalCycles + s.cycles)) (endStep s) :=
  ppuTicks_frame _ _

/-- Rendering a line leaves the counters, the registers and the stores but v, the sprite-zero hit and the frame
buffer. -/
theorem renderLine_frame (params : Params) (cart : Cartridge) (sl : Nat) (ppu : Ppu) :
    ∃ v s0hit fb, renderLine params cart sl ppu = { ppu with v := v, s0hit := s0hit, fb := fb } := by
  unfold renderLine fillBackdrop drawLine putLine
  split
  · dsimp only
    split
    · exact ⟨_, _, _, rfl⟩
    · exact ⟨_, _, ppu.fb, rfl⟩
  · split
    · exact ⟨ppu.v, ppu.s0hit, _, rfl⟩
    · exact ⟨ppu.v, ppu.s0hit, ppu.fb, rfl⟩

end Sys2Proof.Machine
end

