-- ==== Sys2Proof/Laws/Ok.lean ====
section
/-! SUPPORT. Every shared operation keeps the invariant `State.ok`: memories in canonical form and size, the cartridge
admitted, the PPU in range. -/

namespace Sys2Proof.Machine

theorem State.ok_iff (s : State) :
    s.ok = true ↔ s.ram.ok 0x800 = true ∧ s.prgRam.ok 0x2000 = true ∧ s.cart.ok = true ∧ s.ppu.ok = true := by
  simp only [State.ok, Bool.and_eq_true, and_assoc]

theorem Ppu.ok_iff (p : Ppu) :
    p.ok = true ↔ p.dot < 341 ∧ p.scanline < 262 ∧ p.overflow = false ∧ p.oam.ok 0x100 = true ∧
      paletteOk p.palette = true ∧ p.ciram.ok 0x1000 = true ∧ frameOk p.fb = true := by
  simp only [Ppu.ok, Bool.and_eq_true, decide_eq_true_eq, Bool.not_eq_true', and_assoc]

/-- A write of a chr byte keeps an admitted cartridge. -/
theorem Cartridge.ok_setChr {c : Cartridge} (h : c.ok = true) {k : Nat} (hk : k < 0x2000) (b : Byte) :
    Cartridge.ok { c with chr := c.chr.write k b } = true := by
  simp only [Cartridge.ok, Bool.and_eq_true] at h ⊢
  exact ⟨h.1, Memory.write_ok h.2 hk b⟩

theorem sixBits_lt (b : Byte) : b &&& 0x3F < 0x40 := by revert b; decide +kernel

theorem paletteOk_write {m : Memory} (h : paletteOk m = true) {k : Nat} (hk : k < 0x20) (b : Byte) :
    paletteOk (m.write k (b &&& 0x3F)) = true := by
  simp only [paletteOk, Bool.and_eq_true, List.all_eq_true, decide_eq_true_eq] at h ⊢
  refine ⟨Memory.write_ok h.1 hk _, fun e he => ?_⟩
  simp only [Memory.write] at he
  split at he
  · exact h.2 e (mem_keyedErase he)
  · rcases mem_keyedSet he with rfl | he
    · exact sixBits_lt b
    · exact h.2 e he

theorem paletteIndex_lt (a : PpuAddr) : paletteIndex a < 0x20 := by
  unfold paletteIndex
  dsimp only
  split <;> omega

theorem ciramIndex_lt (m : Mirroring) (a : PpuAddr) : ciramIndex m a < 0x1000 := by
  have hb : nametableBank m (a.toNat / 0x400 % 4) < 4 := by
    cases m <;> simp only [nametableBank] <;> omega
  unfold ciramIndex; omega

/-- A target of the PPU space is in the bounds of its store. -/
def PpuTarget.bounded : PpuTarget → Prop
  | .pattern k => k < 0x2000
  | .nametable k => k < 0x1000
  | .palette k => k < 0x20

theorem ppuDecode_bounds (m : Mirroring) (a : PpuAddr) : (ppuDecode m a).bounded := by
  unfold ppuDecode
  split
  · assumption
  · split
    · exact ciramIndex_lt _ _
    · split
      · exact ciramIndex_lt _ _
      · exact paletteIndex_lt _

theorem ppuWrite_ok (a : PpuAddr) (b : Byte) {s : State} (h : s.ok = true) : (ppuWrite a b s).ok = true := by
  have hb := ppuDecode_bounds s.cart.mirroring a
  rw [State.ok_iff] at h
  obtain ⟨h1, h2, h3, h4⟩ := h
  unfold ppuWrite
  split
  · rename_i k hk
    rw [hk] at hb
    split
    · exact (State.ok_iff _).mpr ⟨h1, h2, Cartridge.ok_setChr h3 hb b, h4⟩
    · exact (State.ok_iff _).mpr ⟨h1, h2, h3, h4⟩
  · rename_i k hk
    rw [hk] at hb
    rw [Ppu.ok_iff] at h4
    exact (State.ok_iff _).mpr ⟨h1, h2, h3, (Ppu.ok_iff _).mpr
      ⟨h4.1, h4.2.1, h4.2.2.1, h4.2.2.2.1, h4.2.2.2.2.1, Memory.write_ok h4.2.2.2.2.2.1 hb b, h4.2.2.2.2.2.2⟩⟩
  · rename_i k hk
    rw [hk] at hb
    rw [Ppu.ok_iff] at h4
    exact (State.ok_iff _).mpr ⟨h1, h2, h3, (Ppu.ok_iff _).mpr
      ⟨h4.1, h4.2.1, h4.2.2.1, h4.2.2.2.1, paletteOk_write h4.2.2.2.2.1 hb b, h4.2.2.2.2.2.1, h4.2.2.2.2.2.2⟩⟩

/-- The invariant does not see the fields a register access changes beside the stores. -/
theorem State.ok_setPpu {s : State} (h : s.ok = true) {p : Ppu} (hp : p.ok = true) : (s.setPpu p).ok = true := by
  rw [State.ok_iff] at h ⊢
  exact ⟨h.1, h.2.1, h.2.2.1, hp⟩

theorem State.ok_ppu {s : State} (h : s.ok = true) : s.ppu.ok = true := ((State.ok_iff s).mp h).2.2.2

theorem readTarget_ok (tgt : BusTarget) {s : State} (h : s.ok = true) : (readTarget tgt s).2.ok = true := by
  unfold readTarget
  split
  · exact h
  · unfold ppuRegRead
    split
    · exact State.ok_setPpu (s := s.setDraws (s.draws + 1)) h (State.ok_ppu h)
    · exact h
    · exact State.ok_setPpu h (State.ok_ppu h)
    · exact h
  · exact h
  · exact h
  · exact h
  · exact h
  · split <;> exact h
  · exact h

theorem memRead_ok (a : Addr) {s : State} (h : s.ok = true) : (memRead a s).2.ok = true := readTarget_ok _ h

theorem Ppu.ok_oamWrite {p : Ppu} (h : p.ok = true) {k : Nat} (hk : k < 0x100) (b : Byte) :
    Ppu.ok { p with oam := p.oam.write k b } = true := by
  rw [Ppu.ok_iff] at h ⊢
  exact ⟨h.1, h.2.1, h.2.2.1, Memory.write_ok h.2.2.2.1 hk b, h.2.2.2.2⟩

theorem dmaCopy_ok (page : Byte) (n i : Nat) (hn : i + n ≤ 0x100) {s : State} (h : s.ok = true) :
    (dmaCopy page n i s).ok = true := by
  induction n generalizing i s with
  | zero => exact h
  | succ n ih =>
    rw [dmaCopy_succ]
    have hr := memRead_ok (w16 page (BitVec.ofNat 8 i)) h
    exact ih (i + 1) (by omega) (State.ok_setPpu hr (Ppu.ok_oamWrite (State.ok_ppu hr) (by omega) _))

theorem ppuRegWrite_ok (r : Nat) (b : Byte) {s : State} (h : s.ok = true) : (ppuRegWrite r b s).ok = true := by
  have hp := State.ok_ppu h
  unfold ppuRegWrite
  split
  · exact State.ok_setPpu h hp
  · exact State.ok_setPpu h hp
  · exact State.ok_setPpu h hp
  · exact State.ok_setPpu h (Ppu.ok_oamWrite (p := s.ppu) hp s.ppu.oamAddr.isLt b)
  · refine State.ok_setPpu h ?_
    unfold writeScroll; split <;> exact hp
  · refine State.ok_setPpu h ?_
    unfold writeAddr; split <;> exact hp
  · have hw := ppuWrite_ok (vramAddr s.ppu.v) b h
    exact State.ok_setPpu hw (State.ok_ppu hw)
  · exact h

/-- A target of the CPU bus is in the bounds of its store. -/
def BusTarget.bounded : BusTarget → Prop
  | .ram k => k < 0x800
  | .prgRam k => k < 0x2000
  | _ => True

theorem ioDecode_bounds (k : Nat) : (ioDecode k).bounded := by
  unfold ioDecode; split <;> trivial

theorem busDecode_bounds (a : Addr) : (busDecode a).bounded := by
  unfold busDecode
  split
  · exact Nat.mod_lt _ (by omega)
  · trivial
  · exact ioDecode_bounds _
  · exact Nat.mod_lt _ (by omega)
  · trivial

theorem State.ok_charge (s : State) (n : Nat) : (s.charge n).ok = s.ok := rfl

theorem memWrite_ok (a : Addr) (b : Byte) {s : State} (h : s.ok = true) : (memWrite a b s).ok = true := by
  have hb := busDecode_bounds a
  unfold memWrite
  revert hb
  generalize busDecode a = tgt
  intro hb
  unfold writeTarget
  split
  · rw [State.ok_iff] at h ⊢
    exact ⟨Memory.write_ok h.1 hb b, h.2⟩
  · exact ppuRegWrite_ok _ b h
  · rw [oamDma, State.ok_charge]; exact dmaCopy_ok b 256 0 (by omega) h
  · exact h
  · exact h
  · exact h
  · split
    · rw [State.ok_iff] at h ⊢
      exact ⟨h.1, Memory.write_ok h.2.1 hb b, h.2.2⟩
    · exact h
  · exact h

@[simp] theorem backgroundTile_length (cart : Cartridge) (ppu : Ppu) : (backgroundTile cart ppu).length = 8 := by
  simp [backgroundTile]

theorem backgroundTiles_length (cart : Cartridge) (n : Nat) (ppu : Ppu) :
    (backgroundTiles cart n ppu).length = 8 * n := by
  induction n generalizing ppu with
  | zero => rfl
  | succ n ih => simp only [backgroundTiles, List.length_append, backgroundTile_length, ih]; omega

theorem backgroundRow_length (cart : Cartridge) (ppu : Ppu) : (backgroundRow cart ppu).length = 256 := by
  have hx := ppu.x.isLt
  have hl := backgroundTiles_length cart 33 ppu
  unfold backgroundRow
  split
  · dsimp only
    split
    · simp only [List.length_take, List.length_drop, hl]; omega
    · simp only [List.length_append, List.length_map, List.length_take, List.length_drop, hl]; omega
  · exact List.length_replicate

theorem spriteRow_length (cart : Cartridge) (ppu : Ppu) (sl : Nat) : (spriteRow cart ppu sl).length = 256 := by
  rw [spriteRow, List.length_map, List.length_range]

theorem lineColumns_length (cart : Cartridge) (ppu : Ppu) (sl : Nat) : (lineColumns cart ppu sl).length = 256 := by
  rw [lineColumns, List.length_zip, List.length_zip, backgroundRow_length, spriteRow_length, List.length_range]
  rfl

theorem frameOk_iff (fb : List FrameRow) :
    frameOk fb = true ↔ keyedRising 0 fb = true ∧ ∀ e ∈ fb, e.1 < 240 ∧ e.2.length = 256 := by
  simp only [frameOk, Bool.and_eq_true, List.all_eq_true, decide_eq_true_eq, beq_iff_eq]

theorem putLine_ok (h : FbHeight) (sl : Nat) {line : List Colour} (hl : line.length = 256) {p : Ppu}
    (hp : p.ok = true) : (putLine h sl line p).ok = true := by
  unfold putLine
  split
  · rename_i row hrow
    have hr : row < 240 := by
      unfold frameRow at hrow
      split at hrow <;> split at hrow <;> simp at hrow <;> omega
    rw [Ppu.ok_iff] at hp ⊢
    refine ⟨hp.1, hp.2.1, hp.2.2.1, hp.2.2.2.1, hp.2.2.2.2.1, hp.2.2.2.2.2.1, ?_⟩
    have hf := (frameOk_iff _).mp hp.2.2.2.2.2.2
    refine (frameOk_iff _).mpr ⟨keyedRising_set line hf.1 (Nat.zero_le _), fun e he => ?_⟩
    rcases mem_keyedSet he with rfl | he
    · exact ⟨hr, hl⟩
    · exact hf.2 e he
  · exact hp

theorem renderLine_ok (params : Params) (cart : Cartridge) (sl : Nat) {p : Ppu} (hp : p.ok = true) :
    (renderLine params cart sl p).ok = true := by
  unfold renderLine
  split
  · refine putLine_ok _ _ ?_ ?_
    · rw [List.length_map, lineColumns_length]
    · exact hp
  · exact putLine_ok _ _ List.length_replicate hp

theorem dotEvent_ok {s : State} (h : s.ok = true) : (dotEvent s).ok = true := by
  have hp := State.ok_ppu h
  unfold dotEvent
  split
  · exact State.ok_setPpu h (renderLine_ok _ _ _ hp)
  · split
    · exact State.ok_setPpu (s := s.setNmi _) h hp
    · split
      · refine State.ok_setPpu h ?_
        rw [Ppu.ok_iff] at hp ⊢
        exact ⟨hp.1, hp.2.1, rfl, hp.2.2.2⟩
      · exact h

theorem nextDot_ok {s : State} (h : s.ok = true) : (nextDot s).ok = true := by
  have hp := (Ppu.ok_iff _).mp (State.ok_ppu h)
  unfold nextDot nextLine dotsPerLine linesPerFrame
  split
  · split
    · refine State.ok_setPpu (s := preRenderEnd s) ?_ ?_
      · exact State.ok_setPpu h (State.ok_ppu h)
      · exact (Ppu.ok_iff _).mpr ⟨by simp, by simp, hp.2.2⟩
    · exact State.ok_setPpu h ((Ppu.ok_iff _).mpr ⟨by simp, by dsimp only; omega, hp.2.2⟩)
  · exact State.ok_setPpu h ((Ppu.ok_iff _).mpr ⟨by dsimp only; omega, hp.2⟩)

theorem ppuTick_ok {s : State} (h : s.ok = true) : (ppuTick s).ok = true := nextDot_ok (dotEvent_ok h)

theorem ppuTicks_ok (n : Nat) {s : State} (h : s.ok = true) : (ppuTicks n s).ok = true := by
  induction n generalizing s with
  | zero => exact h
  | succ n ih => exact ih (ppuTick_ok h)

end Sys2Proof.Machine
end

