-- ==== Sys2Proof/Laws/PerInstr.lean ====
section
/-! SUPPORT. Per instruction: the first byte of its encoding indexes the descriptor row of its own mnemonic and mode
(R157 against the "Encoding" line of its rule), and as many operand bytes follow as the mode fetches (R140, R161). -/

/-- A well-formed instruction with bytes encodes to an opcode whose row in R157 is its mnemonic and mode, and that
mode's number of operand bytes. -/
def Sys2Proof.Laws.EncodingRow.Statement (i : Sys2Proof.Instr) : Prop :=
  i.wf = true → i.fetchable = true → ∃ op rest, Sys2Proof.encode i = op :: rest ∧
    (Sys2Proof.descriptor op).mnemonic = i.mnemonic ∧ (Sys2Proof.descriptor op).mode = i.mode ∧
    rest.length = i.mode.operandBytes

namespace Sys2Proof

/-- The rows of the JAM opcodes (R373). -/
theorem jamOpcodes_rows : ∀ op ∈ jamOpcodes, (descriptor op).mnemonic = .jam ∧ (descriptor op).mode = .imp := by
  decide +kernel

/-- The rows of the ANC opcodes (R361). -/
theorem ancOpcodes_rows : ∀ op ∈ ancOpcodes, (descriptor op).mnemonic = .anc ∧ (descriptor op).mode = .imm := by
  decide +kernel

/-- The rows of the *NOP opcodes of a mode (R360). -/
theorem nopOpcodes_rows (mode : Mode) :
    ∀ op ∈ nopOpcodes mode, (descriptor op).mnemonic = .nopU ∧ (descriptor op).mode = mode := by
  cases mode <;> decide +kernel

/-- The row of an opcode that the "Encoding" line of a rule lists, for a data operand. -/
theorem opcodeFor_row (m : Mnemonic) : ∀ mode ∈ m.operandModes,
    (descriptor (opcodeFor m mode)).mnemonic = m ∧ (descriptor (opcodeFor m mode)).mode = mode := by
  cases m <;> decide +kernel

/-- A data operand has as many bytes as its mode fetches (R140). -/
theorem Operand.bytes_length (o : Operand) : o.bytes.length = o.mode.operandBytes := by cases o <;> rfl

/-- The Statement's conclusion for an instruction whose argument is a data operand. -/
theorem operand_row (m : Mnemonic) (o : Operand) (h : o.mode ∈ m.operandModes) :
    ∃ op rest, opcodeFor m o.mode :: o.bytes = op :: rest ∧ (descriptor op).mnemonic = m ∧
      (descriptor op).mode = o.mode ∧ rest.length = o.mode.operandBytes :=
  ⟨_, _, rfl, (opcodeFor_row m _ h).1, (opcodeFor_row m _ h).2, o.bytes_length⟩

end Sys2Proof

theorem Sys2Proof.Laws.EncodingRow.lda (o : Sys2Proof.Operand) : Sys2Proof.Laws.EncodingRow.Statement (.lda o) :=
  fun h _ => Sys2Proof.operand_row .lda o (List.contains_iff_mem.mp h)

theorem Sys2Proof.Laws.EncodingRow.ldx (o : Sys2Proof.Operand) : Sys2Proof.Laws.EncodingRow.Statement (.ldx o) :=
  fun h _ => Sys2Proof.operand_row .ldx o (List.contains_iff_mem.mp h)

theorem Sys2Proof.Laws.EncodingRow.ldy (o : Sys2Proof.Operand) : Sys2Proof.Laws.EncodingRow.Statement (.ldy o) :=
  fun h _ => Sys2Proof.operand_row .ldy o (List.contains_iff_mem.mp h)

theorem Sys2Proof.Laws.EncodingRow.sta (o : Sys2Proof.Operand) : Sys2Proof.Laws.EncodingRow.Statement (.sta o) :=
  fun h _ => Sys2Proof.operand_row .sta o (List.contains_iff_mem.mp h)

theorem Sys2Proof.Laws.EncodingRow.stx (o : Sys2Proof.Operand) : Sys2Proof.Laws.EncodingRow.Statement (.stx o) :=
  fun h _ => Sys2Proof.operand_row .stx o (List.contains_iff_mem.mp h)

theorem Sys2Proof.Laws.EncodingRow.sty (o : Sys2Proof.Operand) : Sys2Proof.Laws.EncodingRow.Statement (.sty o) :=
  fun h _ => Sys2Proof.operand_row .sty o (List.contains_iff_mem.mp h)

theorem Sys2Proof.Laws.EncodingRow.tax : Sys2Proof.Laws.EncodingRow.Statement .tax := fun _ _ => ⟨_, _, rfl, rfl, rfl, rfl⟩

theorem Sys2Proof.Laws.EncodingRow.tay : Sys2Proof.Laws.EncodingRow.Statement .tay := fun _ _ => ⟨_, _, rfl, rfl, rfl, rfl⟩

theorem Sys2Proof.Laws.EncodingRow.txa : Sys2Proof.Laws.EncodingRow.Statement .txa := fun _ _ => ⟨_, _, rfl, rfl, rfl, rfl⟩

theorem Sys2Proof.Laws.EncodingRow.tya : Sys2Proof.Laws.EncodingRow.Statement .tya := fun _ _ => ⟨_, _, rfl, rfl, rfl, rfl⟩

theorem Sys2Proof.Laws.EncodingRow.tsx : Sys2Proof.Laws.EncodingRow.Statement .tsx := fun _ _ => ⟨_, _, rfl, rfl, rfl, rfl⟩

theorem Sys2Proof.Laws.EncodingRow.txs : Sys2Proof.Laws.EncodingRow.Statement .txs := fun _ _ => ⟨_, _, rfl, rfl, rfl, rfl⟩

theorem Sys2Proof.Laws.EncodingRow.adc (o : Sys2Proof.Operand) : Sys2Proof.Laws.EncodingRow.Statement (.adc o) :=
  fun h _ => Sys2Proof.operand_row .adc o (List.contains_iff_mem.mp h)

theorem Sys2Proof.Laws.EncodingRow.sbc (o : Sys2Proof.Operand) : Sys2Proof.Laws.EncodingRow.Statement (.sbc o) :=
  fun h _ => Sys2Proof.operand_row .sbc o (List.contains_iff_mem.mp h)

theorem Sys2Proof.Laws.EncodingRow.and (o : Sys2Proof.Operand) : Sys2Proof.Laws.EncodingRow.Statement (.and o) :=
  fun h _ => Sys2Proof.operand_row .and o (List.contains_iff_mem.mp h)

theorem Sys2Proof.Laws.EncodingRow.ora (o : Sys2Proof.Operand) : Sys2Proof.Laws.EncodingRow.Statement (.ora o) :=
  fun h _ => Sys2Proof.operand_row .ora o (List.contains_iff_mem.mp h)

theorem Sys2Proof.Laws.EncodingRow.eor (o : Sys2Proof.Operand) : Sys2Proof.Laws.EncodingRow.Statement (.eor o) :=
  fun h _ => Sys2Proof.operand_row .eor o (List.contains_iff_mem.mp h)

theorem Sys2Proof.Laws.EncodingRow.bit (o : Sys2Proof.Operand) : Sys2Proof.Laws.EncodingRow.Statement (.bit o) :=
  fun h _ => Sys2Proof.operand_row .bit o (List.contains_iff_mem.mp h)

theorem Sys2Proof.Laws.EncodingRow.cmp (o : Sys2Proof.Operand) : Sys2Proof.Laws.EncodingRow.Statement (.cmp o) :=
  fun h _ => Sys2Proof.operand_row .cmp o (List.contains_iff_mem.mp h)

theorem Sys2Proof.Laws.EncodingRow.cpx (o : Sys2Proof.Operand) : Sys2Proof.Laws.EncodingRow.Statement (.cpx o) :=
  fun h _ => Sys2Proof.operand_row .cpx o (List.contains_iff_mem.mp h)

theorem Sys2Proof.Laws.EncodingRow.cpy (o : Sys2Proof.Operand) : Sys2Proof.Laws.EncodingRow.Statement (.cpy o) :=
  fun h _ => Sys2Proof.operand_row .cpy o (List.contains_iff_mem.mp h)

theorem Sys2Proof.Laws.EncodingRow.inc (o : Sys2Proof.Operand) : Sys2Proof.Laws.EncodingRow.Statement (.inc o) :=
  fun h _ => Sys2Proof.operand_row .inc o (List.contains_iff_mem.mp h)

theorem Sys2Proof.Laws.EncodingRow.dec (o : Sys2Proof.Operand) : Sys2Proof.Laws.EncodingRow.Statement (.dec o) :=
  fun h _ => Sys2Proof.operand_row .dec o (List.contains_iff_mem.mp h)

theorem Sys2Proof.Laws.EncodingRow.inx : Sys2Proof.Laws.EncodingRow.Statement .inx := fun _ _ => ⟨_, _, rfl, rfl, rfl, rfl⟩

theorem Sys2Proof.Laws.EncodingRow.iny : Sys2Proof.Laws.EncodingRow.Statement .iny := fun _ _ => ⟨_, _, rfl, rfl, rfl, rfl⟩

theorem Sys2Proof.Laws.EncodingRow.dex : Sys2Proof.Laws.EncodingRow.Statement .dex := fun _ _ => ⟨_, _, rfl, rfl, rfl, rfl⟩

theorem Sys2Proof.Laws.EncodingRow.dey : Sys2Proof.Laws.EncodingRow.Statement .dey := fun _ _ => ⟨_, _, rfl, rfl, rfl, rfl⟩

theorem Sys2Proof.Laws.EncodingRow.asl (o : Sys2Proof.Operand) : Sys2Proof.Laws.EncodingRow.Statement (.asl o) :=
  fun h _ => Sys2Proof.operand_row .asl o (List.contains_iff_mem.mp h)

theorem Sys2Proof.Laws.EncodingRow.lsr (o : Sys2Proof.Operand) : Sys2Proof.Laws.EncodingRow.Statement (.lsr o) :=
  fun h _ => Sys2Proof.operand_row .lsr o (List.contains_iff_mem.mp h)

theorem Sys2Proof.Laws.EncodingRow.rol (o : Sys2Proof.Operand) : Sys2Proof.Laws.EncodingRow.Statement (.rol o) :=
  fun h _ => Sys2Proof.operand_row .rol o (List.contains_iff_mem.mp h)

theorem Sys2Proof.Laws.EncodingRow.ror (o : Sys2Proof.Operand) : Sys2Proof.Laws.EncodingRow.Statement (.ror o) :=
  fun h _ => Sys2Proof.operand_row .ror o (List.contains_iff_mem.mp h)

theorem Sys2Proof.Laws.EncodingRow.pha : Sys2Proof.Laws.EncodingRow.Statement .pha := fun _ _ => ⟨_, _, rfl, rfl, rfl, rfl⟩

theorem Sys2Proof.Laws.EncodingRow.php : Sys2Proof.Laws.EncodingRow.Statement .php := fun _ _ => ⟨_, _, rfl, rfl, rfl, rfl⟩

theorem Sys2Proof.Laws.EncodingRow.pla : Sys2Proof.Laws.EncodingRow.Statement .pla := fun _ _ => ⟨_, _, rfl, rfl, rfl, rfl⟩

theorem Sys2Proof.Laws.EncodingRow.plp : Sys2Proof.Laws.EncodingRow.Statement .plp := fun _ _ => ⟨_, _, rfl, rfl, rfl, rfl⟩

theorem Sys2Proof.Laws.EncodingRow.jmp (t : Sys2Proof.JumpTarget) : Sys2Proof.Laws.EncodingRow.Statement (.jmp t) := by
  intro _ _
  cases t with
  | abs a => exact ⟨Sys2Proof.opcodeFor .jmp .abs, Sys2Proof.wordBytes a, rfl, rfl, rfl, rfl⟩
  | ind a => exact ⟨Sys2Proof.opcodeFor .jmp .ind, Sys2Proof.wordBytes a, rfl, rfl, rfl, rfl⟩

theorem Sys2Proof.Laws.EncodingRow.jsr (a : Sys2Proof.Addr) : Sys2Proof.Laws.EncodingRow.Statement (.jsr a) := fun _ _ => ⟨_, _, rfl, rfl, rfl, rfl⟩

theorem Sys2Proof.Laws.EncodingRow.rts : Sys2Proof.Laws.EncodingRow.Statement .rts := fun _ _ => ⟨_, _, rfl, rfl, rfl, rfl⟩

theorem Sys2Proof.Laws.EncodingRow.rti : Sys2Proof.Laws.EncodingRow.Statement .rti := fun _ _ => ⟨_, _, rfl, rfl, rfl, rfl⟩

theorem Sys2Proof.Laws.EncodingRow.brk : Sys2Proof.Laws.EncodingRow.Statement .brk := fun _ _ => ⟨_, _, rfl, rfl, rfl, rfl⟩

theorem Sys2Proof.Laws.EncodingRow.bpl (b : Sys2Proof.Byte) : Sys2Proof.Laws.EncodingRow.Statement (.bpl b) := fun _ _ => ⟨_, _, rfl, rfl, rfl, rfl⟩

theorem Sys2Proof.Laws.EncodingRow.bmi (b : Sys2Proof.Byte) : Sys2Proof.Laws.EncodingRow.Statement (.bmi b) := fun _ _ => ⟨_, _, rfl, rfl, rfl, rfl⟩

theorem Sys2Proof.Laws.EncodingRow.bvc (b : Sys2Proof.Byte) : Sys2Proof.Laws.EncodingRow.Statement (.bvc b) := fun _ _ => ⟨_, _, rfl, rfl, rfl, rfl⟩

theorem Sys2Proof.Laws.EncodingRow.bvs (b : Sys2Proof.Byte) : Sys2Proof.Laws.EncodingRow.Statement (.bvs b) := fun _ _ => ⟨_, _, rfl, rfl, rfl, rfl⟩

theorem Sys2Proof.Laws.EncodingRow.bcc (b : Sys2Proof.Byte) : Sys2Proof.Laws.EncodingRow.Statement (.bcc b) := fun _ _ => ⟨_, _, rfl, rfl, rfl, rfl⟩

theorem Sys2Proof.Laws.EncodingRow.bcs (b : Sys2Proof.Byte) : Sys2Proof.Laws.EncodingRow.Statement (.bcs b) := fun _ _ => ⟨_, _, rfl, rfl, rfl, rfl⟩

theorem Sys2Proof.Laws.EncodingRow.bne (b : Sys2Proof.Byte) : Sys2Proof.Laws.EncodingRow.Statement (.bne b) := fun _ _ => ⟨_, _, rfl, rfl, rfl, rfl⟩

theorem Sys2Proof.Laws.EncodingRow.beq (b : Sys2Proof.Byte) : Sys2Proof.Laws.EncodingRow.Statement (.beq b) := fun _ _ => ⟨_, _, rfl, rfl, rfl, rfl⟩

theorem Sys2Proof.Laws.EncodingRow.clc : Sys2Proof.Laws.EncodingRow.Statement .clc := fun _ _ => ⟨_, _, rfl, rfl, rfl, rfl⟩

theorem Sys2Proof.Laws.EncodingRow.sec : Sys2Proof.Laws.EncodingRow.Statement .sec := fun _ _ => ⟨_, _, rfl, rfl, rfl, rfl⟩

theorem Sys2Proof.Laws.EncodingRow.cli : Sys2Proof.Laws.EncodingRow.Statement .cli := fun _ _ => ⟨_, _, rfl, rfl, rfl, rfl⟩

theorem Sys2Proof.Laws.EncodingRow.sei : Sys2Proof.Laws.EncodingRow.Statement .sei := fun _ _ => ⟨_, _, rfl, rfl, rfl, rfl⟩

theorem Sys2Proof.Laws.EncodingRow.cld : Sys2Proof.Laws.EncodingRow.Statement .cld := fun _ _ => ⟨_, _, rfl, rfl, rfl, rfl⟩

theorem Sys2Proof.Laws.EncodingRow.sed : Sys2Proof.Laws.EncodingRow.Statement .sed := fun _ _ => ⟨_, _, rfl, rfl, rfl, rfl⟩

theorem Sys2Proof.Laws.EncodingRow.clv : Sys2Proof.Laws.EncodingRow.Statement .clv := fun _ _ => ⟨_, _, rfl, rfl, rfl, rfl⟩

theorem Sys2Proof.Laws.EncodingRow.nop : Sys2Proof.Laws.EncodingRow.Statement .nop := fun _ _ => ⟨_, _, rfl, rfl, rfl, rfl⟩

theorem Sys2Proof.Laws.EncodingRow.lax (o : Sys2Proof.Operand) : Sys2Proof.Laws.EncodingRow.Statement (.lax o) :=
  fun h _ => Sys2Proof.operand_row .lax o (List.contains_iff_mem.mp h)

theorem Sys2Proof.Laws.EncodingRow.sax (o : Sys2Proof.Operand) : Sys2Proof.Laws.EncodingRow.Statement (.sax o) :=
  fun h _ => Sys2Proof.operand_row .sax o (List.contains_iff_mem.mp h)

theorem Sys2Proof.Laws.EncodingRow.sbcU (b : Sys2Proof.Byte) : Sys2Proof.Laws.EncodingRow.Statement (.sbcU b) := fun _ _ => ⟨_, _, rfl, rfl, rfl, rfl⟩

theorem Sys2Proof.Laws.EncodingRow.dcp (o : Sys2Proof.Operand) : Sys2Proof.Laws.EncodingRow.Statement (.dcp o) :=
  fun h _ => Sys2Proof.operand_row .dcp o (List.contains_iff_mem.mp h)

theorem Sys2Proof.Laws.EncodingRow.isb (o : Sys2Proof.Operand) : Sys2Proof.Laws.EncodingRow.Statement (.isb o) :=
  fun h _ => Sys2Proof.operand_row .isb o (List.contains_iff_mem.mp h)

theorem Sys2Proof.Laws.EncodingRow.slo (o : Sys2Proof.Operand) : Sys2Proof.Laws.EncodingRow.Statement (.slo o) :=
  fun h _ => Sys2Proof.operand_row .slo o (List.contains_iff_mem.mp h)

theorem Sys2Proof.Laws.EncodingRow.rla (o : Sys2Proof.Operand) : Sys2Proof.Laws.EncodingRow.Statement (.rla o) :=
  fun h _ => Sys2Proof.operand_row .rla o (List.contains_iff_mem.mp h)

theorem Sys2Proof.Laws.EncodingRow.sre (o : Sys2Proof.Operand) : Sys2Proof.Laws.EncodingRow.Statement (.sre o) :=
  fun h _ => Sys2Proof.operand_row .sre o (List.contains_iff_mem.mp h)

theorem Sys2Proof.Laws.EncodingRow.rra (o : Sys2Proof.Operand) : Sys2Proof.Laws.EncodingRow.Statement (.rra o) :=
  fun h _ => Sys2Proof.operand_row .rra o (List.contains_iff_mem.mp h)

theorem Sys2Proof.Laws.EncodingRow.nopU (op : Sys2Proof.Byte) (o : Option Sys2Proof.Operand) : Sys2Proof.Laws.EncodingRow.Statement (.nopU op o) := by
  intro h _
  have hr := Sys2Proof.nopOpcodes_rows _ op (List.contains_iff_mem.mp h)
  refine ⟨_, _, rfl, hr.1, hr.2, ?_⟩
  rcases o with _ | o
  · rfl
  · cases o <;> rfl

theorem Sys2Proof.Laws.EncodingRow.anc (op b : Sys2Proof.Byte) : Sys2Proof.Laws.EncodingRow.Statement (.anc op b) := by
  intro h _
  have hr := Sys2Proof.ancOpcodes_rows op (List.contains_iff_mem.mp h)
  exact ⟨_, _, rfl, hr.1, hr.2, rfl⟩

theorem Sys2Proof.Laws.EncodingRow.alr (b : Sys2Proof.Byte) : Sys2Proof.Laws.EncodingRow.Statement (.alr b) := fun _ _ => ⟨_, _, rfl, rfl, rfl, rfl⟩

theorem Sys2Proof.Laws.EncodingRow.arr (b : Sys2Proof.Byte) : Sys2Proof.Laws.EncodingRow.Statement (.arr b) := fun _ _ => ⟨_, _, rfl, rfl, rfl, rfl⟩

theorem Sys2Proof.Laws.EncodingRow.axs (b : Sys2Proof.Byte) : Sys2Proof.Laws.EncodingRow.Statement (.axs b) := fun _ _ => ⟨_, _, rfl, rfl, rfl, rfl⟩

theorem Sys2Proof.Laws.EncodingRow.las (a : Sys2Proof.Addr) : Sys2Proof.Laws.EncodingRow.Statement (.las a) := fun _ _ => ⟨_, _, rfl, rfl, rfl, rfl⟩

theorem Sys2Proof.Laws.EncodingRow.xaa (b : Sys2Proof.Byte) : Sys2Proof.Laws.EncodingRow.Statement (.xaa b) := fun _ _ => ⟨_, _, rfl, rfl, rfl, rfl⟩

theorem Sys2Proof.Laws.EncodingRow.lxa (b : Sys2Proof.Byte) : Sys2Proof.Laws.EncodingRow.Statement (.lxa b) := fun _ _ => ⟨_, _, rfl, rfl, rfl, rfl⟩

theorem Sys2Proof.Laws.EncodingRow.sha (o : Sys2Proof.Operand) : Sys2Proof.Laws.EncodingRow.Statement (.sha o) :=
  fun h _ => Sys2Proof.operand_row .sha o (List.contains_iff_mem.mp h)

theorem Sys2Proof.Laws.EncodingRow.shx (a : Sys2Proof.Addr) : Sys2Proof.Laws.EncodingRow.Statement (.shx a) := fun _ _ => ⟨_, _, rfl, rfl, rfl, rfl⟩

theorem Sys2Proof.Laws.EncodingRow.shy (a : Sys2Proof.Addr) : Sys2Proof.Laws.EncodingRow.Statement (.shy a) := fun _ _ => ⟨_, _, rfl, rfl, rfl, rfl⟩

theorem Sys2Proof.Laws.EncodingRow.tas (a : Sys2Proof.Addr) : Sys2Proof.Laws.EncodingRow.Statement (.tas a) := fun _ _ => ⟨_, _, rfl, rfl, rfl, rfl⟩

theorem Sys2Proof.Laws.EncodingRow.jam (op : Sys2Proof.Byte) : Sys2Proof.Laws.EncodingRow.Statement (.jam op) := by
  intro h _
  have hr := Sys2Proof.jamOpcodes_rows op (List.contains_iff_mem.mp h)
  exact ⟨_, _, rfl, hr.1, hr.2, rfl⟩

theorem Sys2Proof.Laws.EncodingRow.nmi : Sys2Proof.Laws.EncodingRow.Statement .nmi := fun _ h => (Bool.false_ne_true h).elim

theorem Sys2Proof.Laws.EncodingRow.irq : Sys2Proof.Laws.EncodingRow.Statement .irq := fun _ h => (Bool.false_ne_true h).elim
end

