-- ==== Sys2Proof/Laws/Session.lean ====
section
/-! SUPPORT. The stores power-on draws: what they read and that they are in canonical form and size. -/

namespace Sys2Proof.Machine

/-- The memory of a byte list reads the list. -/
theorem keyedGet_ofBytesFrom (bs : List Byte) (base k : Nat) (h : base ≤ k) :
    (keyedGet k (Memory.ofBytesFrom base bs)).getD Memory.unlisted = bs.getD (k - base) Memory.unlisted := by
  induction bs generalizing base with
  | nil => rfl
  | cons b rest ih =>
    simp only [Memory.ofBytesFrom]
    rcases Nat.eq_or_lt_of_le h with rfl | hlt
    · split
      · rename_i hb
        rw [keyedGet_none_of_rising (Memory.ofBytesFrom_rising rest (base + 1)) (by omega)]
        simp [hb]
      · simp [keyedGet]
    · have hk : k - base = (k - (base + 1)) + 1 := by omega
      rw [hk, List.getD_cons_succ, ← ih (base + 1) (by omega)]
      split
      · rfl
      · simp [keyedGet, show k ≠ base by omega]

/-- A drawn store reads the drawn bytes, and 0 where none was given. -/
theorem drawn_read (size : Nat) (bytes : List Byte) {k : Nat} (h : k < size) :
    (drawn size bytes).read k = bytes.getD k 0 := by
  have := keyedGet_ofBytesFrom (bytes.take size) 0 k (Nat.zero_le k)
  simp only [Memory.read, drawn]
  rw [this, Nat.sub_zero]
  simp [List.getD_eq_getElem?_getD, h, Memory.unlisted]

/-- A drawn store is in canonical form and size. -/
theorem drawn_ok {size n : Nat} (bytes : List Byte) (h : size ≤ n) : (drawn size bytes).ok n = true :=
  Memory.ofBytes_ok _ (by rw [List.length_take]; omega)

/-- A drawn palette has six-bit entries. -/
theorem drawn_palette_ok (bytes : List Byte) : paletteOk (drawn 0x20 (bytes.map (· &&& 0x3F))) = true := by
  simp only [paletteOk, Bool.and_eq_true, List.all_eq_true, decide_eq_true_eq]
  refine ⟨drawn_ok _ (by omega), fun e he => ?_⟩
  have hm : ∀ (bs : List Byte) (base : Nat), (∀ b ∈ bs, b < 0x40) →
      ∀ e ∈ Memory.ofBytesFrom base bs, e.2 < 0x40 := by
    intro bs
    induction bs with
    | nil => intro _ _ e he; simp [Memory.ofBytesFrom] at he
    | cons b rest ih =>
      intro base hb e he
      simp only [Memory.ofBytesFrom] at he
      have hr := ih (base + 1) fun c hc => hb c (List.mem_cons_of_mem _ hc)
      split at he
      · exact hr e he
      · rcases List.mem_cons.mp he with rfl | he
        · exact hb b List.mem_cons_self
        · exact hr e he
  refine hm _ 0 (fun b hb => ?_) e he
  obtain ⟨c, -, rfl⟩ := List.mem_map.mp (List.mem_of_mem_take hb)
  exact sixBits_lt c

end Sys2Proof.Machine
end

