-- ==== Sys2Proof/Tests/Slice0.lean ====
section
/-! SUPPORT. Tests of the model: ill-formed terms, words written out from the "Encoding" lines of files 41 to 47, one
step of each instruction on a small state, and a state that meets the hypotheses of each statement. Expected values are
those of 95_test_vectors.md, named V<n>.<m>, or worked out by hand from the rule a comment names. -/

namespace Sys2Proof.Tests

open Sys2Proof.Machine Sys2Proof.Claims

set_option Elab.async false

/-- The start state of the vectors: code at 0x0200, P = 0x24. -/
def start200 : State := { State.reset with pc := 0x0200 }

/-- Bytes stored at addresses. -/
def withBytes : List (Addr × Byte) → State → State
  | [], s => s
  | (a, b) :: rest, s => withBytes rest (placeByte a b s)

/-- One step of code at 0x0200 with the given bytes in memory. -/
def run1 (code : List Byte) (mem : List (Addr × Byte)) (s : State) : Result :=
  step (withBytes mem (placeBytes 0x0200 code s))

/-- A, X, Y, SP, P as PackP(0), pc and the cycle count of an answered state. -/
def regs : Result → Option (List Byte × Addr × Nat)
  | .next s => some ([s.a, s.x, s.y, s.sp, s.p.pack false], s.pc, s.cycles)
  | .fault _ | .refused _ => none

/-- RAM bytes of an answered state. -/
def ramAt (ks : List Nat) : Result → List Byte
  | .next s => ks.map s.ram.read
  | .fault _ | .refused _ => []

/-- A property of an answered state. -/
def holds (f : State → Bool) : Result → Bool
  | .next s => f s
  | .fault _ | .refused _ => false

/-- Why an outcome is refused. -/
def refusal {α : Type} : Host.Outcome α Fault Refusal → Option Refusal
  | .refused r => some r
  | .next _ | .fault _ => none

/-- The instruction read from bytes that are one instruction. -/
def decoded (bytes : List Byte) : Option Instr :=
  match decode bytes with
  | .ok (i, []) => some i
  | .ok _ | .error _ => none

/-- Writes through the CPU bus, in order. -/
def writes : List (Addr × Byte) → State → State
  | [], s => s
  | (a, b) :: rest, s => writes rest (memWrite a b s)

/-- n reads of an address through the CPU bus: the bytes. -/
def reads (a : Addr) : Nat → State → List Byte
  | 0, _ => []
  | n + 1, s => (memRead a s).1 :: reads a n (memRead a s).2

/-- Vertical mirroring, the cartridge of V10. -/
def vertical : State := { State.reset with cart := { Cartridge.blank with mirroring := .vertical } }

/-- The parameters with UNSTABLE_MODE = nmos; the default is refuse (D4). -/
def nmos : Params := { Params.atReset with unstableMode := .nmos }

/-! ### Ill-formed terms -/

theorem test_wf_refuses_loads_and_stores :
    [Instr.lda .acc, .lda (.zpy 0), .ldx (.zpx 0), .ldx .acc, .ldy (.zpy 0), .ldy (.aby 0), .sta (.imm 0), .sta .acc,
     .stx (.imm 0), .stx (.zpx 0), .sty (.imm 0), .sty (.zpy 0)].all (fun i => !i.wf) = true := by decide +kernel

theorem test_wf_refuses_arithmetic :
    [Instr.adc .acc, .sbc .acc, .and (.zpy 0), .ora .acc, .eor .acc, .bit (.imm 0), .bit (.abx 0), .cmp .acc,
     .cpx (.zpx 0), .cpy (.abx 0), .inc .acc, .inc (.aby 0), .dec .acc, .dec (.izx 0)].all (fun i => !i.wf) = true := by
  decide +kernel

theorem test_wf_refuses_shifts :
    [Instr.asl (.imm 0), .asl (.aby 0), .lsr (.imm 0), .rol (.zpy 0), .ror (.izy 0)].all (fun i => !i.wf) = true := by
  decide +kernel

theorem test_wf_refuses_undocumented :
    [Instr.lax (.imm 0), .lax (.zpx 0), .sax (.zpx 0), .sax (.aby 0), .dcp .acc, .dcp (.zpy 0), .isb (.imm 0), .slo .acc,
     .rla .acc, .sre .acc, .rra (.imm 0), .sha (.abx 0), .sha (.zp 0)].all (fun i => !i.wf) = true := by decide +kernel

theorem test_wf_refuses_opcode_arguments :
    [Instr.jam 0x82, .jam 0x00, .anc 0x4B 0, .anc 0x02 0, .nopU 0xEA none, .nopU 0x04 none, .nopU 0x1A (some (.zp 0)),
     .nopU 0x80 (some (.zp 0)), .nopU 0x0C (some (.abx 0)), .nopU 0x1C (some (.aby 0))].all (fun i => !i.wf) = true := by
  decide +kernel

/-! ### Words written out from the rules -/

theorem test_decode_loads :
    decoded [0xA1, 0x10] = some (.lda (.izx 0x10)) ∧
    decoded [0xA9, 0xFF] = some (.lda (.imm 0xFF)) ∧
    decoded [0xBD, 0x34, 0x12] = some (.lda (.abx 0x1234)) ∧
    decoded [0xB6, 0x10] = some (.ldx (.zpy 0x10)) ∧
    decoded [0xBE, 0x34, 0x12] = some (.ldx (.aby 0x1234)) ∧
    decoded [0xAC, 0x34, 0x12] = some (.ldy (.abs 0x1234)) ∧
    decoded [0xB4, 0x10] = some (.ldy (.zpx 0x10)) := by decide +kernel

theorem test_decode_stores :
    decoded [0x91, 0x10] = some (.sta (.izy 0x10)) ∧
    decoded [0x99, 0x34, 0x12] = some (.sta (.aby 0x1234)) ∧
    decoded [0x8E, 0x34, 0x12] = some (.stx (.abs 0x1234)) ∧
    decoded [0x94, 0x10] = some (.sty (.zpx 0x10)) := by decide +kernel

theorem test_decode_transfers :
    decoded [0xAA] = some (.tax) ∧
    decoded [0xA8] = some (.tay) ∧
    decoded [0x8A] = some (.txa) ∧
    decoded [0x98] = some (.tya) ∧
    decoded [0xBA] = some (.tsx) ∧
    decoded [0x9A] = some (.txs) := by decide +kernel

theorem test_decode_arithmetic :
    decoded [0x71, 0x10] = some (.adc (.izy 0x10)) ∧
    decoded [0xF9, 0x34, 0x12] = some (.sbc (.aby 0x1234)) ∧
    decoded [0x21, 0x10] = some (.and (.izx 0x10)) ∧
    decoded [0x0D, 0x34, 0x12] = some (.ora (.abs 0x1234)) ∧
    decoded [0x55, 0x10] = some (.eor (.zpx 0x10)) ∧
    decoded [0x2C, 0x34, 0x12] = some (.bit (.abs 0x1234)) := by decide +kernel

theorem test_decode_compares :
    decoded [0xDD, 0x34, 0x12] = some (.cmp (.abx 0x1234)) ∧
    decoded [0xE0, 0x10] = some (.cpx (.imm 0x10)) ∧
    decoded [0xCC, 0x34, 0x12] = some (.cpy (.abs 0x1234)) := by decide +kernel

theorem test_decode_increments :
    decoded [0xF6, 0x10] = some (.inc (.zpx 0x10)) ∧
    decoded [0xDE, 0x34, 0x12] = some (.dec (.abx 0x1234)) ∧
    decoded [0xE8] = some (.inx) ∧
    decoded [0xC8] = some (.iny) ∧
    decoded [0xCA] = some (.dex) ∧
    decoded [0x88] = some (.dey) := by decide +kernel

theorem test_decode_shifts :
    decoded [0x0A] = some (.asl .acc) ∧
    decoded [0x5E, 0x34, 0x12] = some (.lsr (.abx 0x1234)) ∧
    decoded [0x26, 0x10] = some (.rol (.zp 0x10)) ∧
    decoded [0x6E, 0x34, 0x12] = some (.ror (.abs 0x1234)) := by decide +kernel

theorem test_decode_stack :
    decoded [0x48] = some (.pha) ∧
    decoded [0x08] = some (.php) ∧
    decoded [0x68] = some (.pla) ∧
    decoded [0x28] = some (.plp) := by decide +kernel

theorem test_decode_control :
    decoded [0x4C, 0x34, 0x12] = some (.jmp (.abs 0x1234)) ∧
    decoded [0x6C, 0x34, 0x12] = some (.jmp (.ind 0x1234)) ∧
    decoded [0x20, 0x34, 0x12] = some (.jsr 0x1234) ∧
    decoded [0x60] = some (.rts) ∧
    decoded [0x40] = some (.rti) ∧
    decoded [0x00] = some (.brk) := by decide +kernel

theorem test_decode_branches :
    decoded [0x10, 0x80] = some (.bpl 0x80) ∧
    decoded [0x30, 0x80] = some (.bmi 0x80) ∧
    decoded [0x50, 0x80] = some (.bvc 0x80) ∧
    decoded [0x70, 0x80] = some (.bvs 0x80) ∧
    decoded [0x90, 0x80] = some (.bcc 0x80) ∧
    decoded [0xB0, 0x80] = some (.bcs 0x80) ∧
    decoded [0xD0, 0x80] = some (.bne 0x80) ∧
    decoded [0xF0, 0x80] = some (.beq 0x80) := by decide +kernel

theorem test_decode_flags :
    decoded [0x18] = some (.clc) ∧
    decoded [0x38] = some (.sec) ∧
    decoded [0x58] = some (.cli) ∧
    decoded [0x78] = some (.sei) ∧
    decoded [0xD8] = some (.cld) ∧
    decoded [0xF8] = some (.sed) ∧
    decoded [0xB8] = some (.clv) ∧
    decoded [0xEA] = some (.nop) := by decide +kernel

theorem test_decode_combinations :
    decoded [0xB7, 0x10] = some (.lax (.zpy 0x10)) ∧
    decoded [0x97, 0x10] = some (.sax (.zpy 0x10)) ∧
    decoded [0xEB, 0x10] = some (.sbcU 0x10) ∧
    decoded [0xD3, 0x10] = some (.dcp (.izy 0x10)) ∧
    decoded [0xFB, 0x34, 0x12] = some (.isb (.aby 0x1234)) ∧
    decoded [0x03, 0x10] = some (.slo (.izx 0x10)) ∧
    decoded [0x3F, 0x34, 0x12] = some (.rla (.abx 0x1234)) ∧
    decoded [0x57, 0x10] = some (.sre (.zpx 0x10)) ∧
    decoded [0x6F, 0x34, 0x12] = some (.rra (.abs 0x1234)) := by decide +kernel

theorem test_decode_nops_and_immediates :
    decoded [0x1A] = some (.nopU 0x1A none) ∧
    decoded [0x89, 0x10] = some (.nopU 0x89 (some (.imm 0x10))) ∧
    decoded [0x0C, 0x34, 0x12] = some (.nopU 0x0C (some (.abs 0x1234))) ∧
    decoded [0x2B, 0x10] = some (.anc 0x2B 0x10) ∧
    decoded [0x4B, 0x10] = some (.alr 0x10) ∧
    decoded [0x6B, 0x10] = some (.arr 0x10) ∧
    decoded [0xCB, 0x10] = some (.axs 0x10) ∧
    decoded [0xBB, 0x34, 0x12] = some (.las 0x1234) := by decide +kernel

theorem test_decode_unstable_and_jam :
    decoded [0x8B, 0x10] = some (.xaa 0x10) ∧
    decoded [0xAB, 0x10] = some (.lxa 0x10) ∧
    decoded [0x93, 0x10] = some (.sha (.izy 0x10)) ∧
    decoded [0x9F, 0x34, 0x12] = some (.sha (.aby 0x1234)) ∧
    decoded [0x9E, 0x34, 0x12] = some (.shx 0x1234) ∧
    decoded [0x9C, 0x34, 0x12] = some (.shy 0x1234) ∧
    decoded [0x9B, 0x34, 0x12] = some (.tas 0x1234) ∧
    decoded [0xB2] = some (.jam 0xB2) := by decide +kernel

/-! ### One step of each instruction -/

/-- V1.1, V1.2. -/
theorem test_lda :
    regs (run1 [0xA9, 0x00] [] start200) =
      some ([0x00, 0x00, 0x00, 0xFD, 0x26], 0x0202, 2) ∧
    regs (run1 [0xA9, 0x80] [] start200) =
      some ([0x80, 0x00, 0x00, 0xFD, 0xA4], 0x0202, 2) := by decide +kernel

/-- V1.3, V1.4. -/
theorem test_lda_abx :
    regs (run1 [0xBD, 0x34, 0x12] [(0x1304, 0x00)] { start200 with x := 0xD0 }) =
      some ([0x00, 0xD0, 0x00, 0xFD, 0x26], 0x0203, 5) ∧
    regs (run1 [0xBD, 0x34, 0x12] [(0x1235, 0x00)] { start200 with x := 0x01 }) =
      some ([0x00, 0x01, 0x00, 0xFD, 0x26], 0x0203, 4) := by decide +kernel

/-- V1.6. -/
theorem test_ldx :
    regs (run1 [0xB6, 0xFF] [(0x0001, 0x99)] { start200 with y := 0x02 }) =
      some ([0x00, 0x99, 0x02, 0xFD, 0xA4], 0x0202, 4) := by decide +kernel

/-- V1.5. -/
theorem test_zpx_wraps :
    regs (run1 [0xB5, 0xF0] [(0x0010, 0x55)] { start200 with x := 0x20 }) =
      some ([0x55, 0x20, 0x00, 0xFD, 0x24], 0x0202, 4) := by decide +kernel

/-- V1.7. -/
theorem test_izx_pointer :
    regs (run1 [0xA1, 0xFE] [(0x00FF, 0x00), (0x0000, 0x03), (0x0300, 0x7F)] { start200 with x := 0x01 }) =
      some ([0x7F, 0x01, 0x00, 0xFD, 0x24], 0x0202, 6) := by decide +kernel

/-- V1.8, V1.9. -/
theorem test_izy_pointer :
    regs (run1 [0xB1, 0xFF] [(0x00FF, 0x34), (0x0000, 0x03), (0x0344, 0xAA)] { start200 with y := 0x10 }) =
      some ([0xAA, 0x00, 0x10, 0xFD, 0xA4], 0x0202, 5) ∧
    regs (run1 [0xB1, 0xFF] [(0x00FF, 0x34), (0x0000, 0x03), (0x0404, 0x01)] { start200 with y := 0xD0 }) =
      some ([0x01, 0x00, 0xD0, 0xFD, 0x24], 0x0202, 6) := by decide +kernel

/-- R222, R9. -/
theorem test_ldy :
    regs (run1 [0xA0, 0x80] [] start200) =
      some ([0x00, 0x00, 0x80, 0xFD, 0xA4], 0x0202, 2) := by decide +kernel

/-- V1.10, V1.11. -/
theorem test_sta :
    regs (run1 [0x8D, 0x00, 0x03] [] { start200 with a := 0x5A }) =
      some ([0x5A, 0x00, 0x00, 0xFD, 0x24], 0x0203, 4) ∧
    ramAt [0x0300] (run1 [0x8D, 0x00, 0x03] [] { start200 with a := 0x5A }) = [0x5A] ∧
    regs (run1 [0x9D, 0xFF, 0x03] [] { start200 with a := 0x11, x := 0x01 }) =
      some ([0x11, 0x01, 0x00, 0xFD, 0x24], 0x0203, 5) ∧
    ramAt [0x0400] (run1 [0x9D, 0xFF, 0x03] [] { start200 with a := 0x11, x := 0x01 }) = [0x11] := by decide +kernel

/-- R224, R148. -/
theorem test_stx :
    regs (run1 [0x96, 0xFF] [] { start200 with x := 0x7E, y := 0x02 }) =
      some ([0x00, 0x7E, 0x02, 0xFD, 0x24], 0x0202, 4) ∧
    ramAt [0x0001] (run1 [0x96, 0xFF] [] { start200 with x := 0x7E, y := 0x02 }) = [0x7E] := by decide +kernel

/-- R225, R147. -/
theorem test_sty :
    regs (run1 [0x94, 0xFF] [] { start200 with y := 0x7E, x := 0x02 }) =
      some ([0x00, 0x02, 0x7E, 0xFD, 0x24], 0x0202, 4) ∧
    ramAt [0x0001] (run1 [0x94, 0xFF] [] { start200 with y := 0x7E, x := 0x02 }) = [0x7E] := by decide +kernel

/-- V1.12. -/
theorem test_tax :
    regs (run1 [0xAA] [] { start200 with a := 0x00, x := 0x09 }) =
      some ([0x00, 0x00, 0x00, 0xFD, 0x26], 0x0201, 2) := by decide +kernel

/-- R227. -/
theorem test_tay :
    regs (run1 [0xA8] [] { start200 with a := 0x80 }) =
      some ([0x80, 0x00, 0x80, 0xFD, 0xA4], 0x0201, 2) := by decide +kernel

/-- R228. -/
theorem test_txa :
    regs (run1 [0x8A] [] { start200 with x := 0x80 }) =
      some ([0x80, 0x80, 0x00, 0xFD, 0xA4], 0x0201, 2) := by decide +kernel

/-- R229. -/
theorem test_tya :
    regs (run1 [0x98] [] { start200 with a := 0x05, y := 0x00 }) =
      some ([0x00, 0x00, 0x00, 0xFD, 0x26], 0x0201, 2) := by decide +kernel

/-- V1.13. -/
theorem test_txs :
    regs (run1 [0x9A] [] { start200 with x := 0x00 }) =
      some ([0x00, 0x00, 0x00, 0x00, 0x24], 0x0201, 2) := by decide +kernel

/-- V1.14. -/
theorem test_tsx :
    regs (run1 [0xBA] [] { start200 with sp := 0x80 }) =
      some ([0x00, 0x80, 0x00, 0x80, 0xA4], 0x0201, 2) := by decide +kernel

/-- V2.1, V2.3. -/
theorem test_adc :
    regs (run1 [0x69, 0x50] [] { start200 with a := 0x50 }) =
      some ([0xA0, 0x00, 0x00, 0xFD, 0xE4], 0x0202, 2) ∧
    regs (run1 [0x69, 0x80] [] { start200 with a := 0x80 }) =
      some ([0x00, 0x00, 0x00, 0xFD, 0x67], 0x0202, 2) := by decide +kernel

/-- V2.4, V2.9. -/
theorem test_adc_carry_in :
    regs (run1 [0x69, 0x00] [] { start200 with a := 0x7F, p := Flags.unpack 0x25 }) =
      some ([0x80, 0x00, 0x00, 0xFD, 0xE4], 0x0202, 2) ∧
    regs (run1 [0x69, 0x05] [] { start200 with a := 0x05, p := Flags.unpack 0x2C }) =
      some ([0x0A, 0x00, 0x00, 0xFD, 0x2C], 0x0202, 2) := by decide +kernel

/-- V2.5, V2.6. -/
theorem test_sbc :
    regs (run1 [0xE9, 0x01] [] { start200 with p := Flags.unpack 0x25 }) =
      some ([0xFF, 0x00, 0x00, 0xFD, 0xA4], 0x0202, 2) ∧
    regs (run1 [0xE9, 0x01] [] { start200 with a := 0x80, p := Flags.unpack 0x25 }) =
      some ([0x7F, 0x00, 0x00, 0xFD, 0x65], 0x0202, 2) := by decide +kernel

/-- V2.7, V2.8. -/
theorem test_sbc_borrow_in :
    regs (run1 [0xE9, 0xB0] [] { start200 with a := 0x50, p := Flags.unpack 0x25 }) =
      some ([0xA0, 0x00, 0x00, 0xFD, 0xE4], 0x0202, 2) ∧
    regs (run1 [0xE9, 0x00] [] { start200 with a := 0x05 }) =
      some ([0x04, 0x00, 0x00, 0xFD, 0x25], 0x0202, 2) := by decide +kernel

/-- V2.10. -/
theorem test_and :
    regs (run1 [0x29, 0x0F] [] { start200 with a := 0xF3 }) =
      some ([0x03, 0x00, 0x00, 0xFD, 0x24], 0x0202, 2) := by decide +kernel

/-- V2.11. -/
theorem test_ora :
    regs (run1 [0x09, 0x80] [] { start200 with a := 0x01 }) =
      some ([0x81, 0x00, 0x00, 0xFD, 0xA4], 0x0202, 2) := by decide +kernel

/-- V2.12. -/
theorem test_eor :
    regs (run1 [0x49, 0xFF] [] { start200 with a := 0xFF }) =
      some ([0x00, 0x00, 0x00, 0xFD, 0x26], 0x0202, 2) := by decide +kernel

/-- V2.13, V2.14. -/
theorem test_bit :
    regs (run1 [0x24, 0x10] [(0x0010, 0xC0)] { start200 with a := 0x01 }) =
      some ([0x01, 0x00, 0x00, 0xFD, 0xE6], 0x0202, 3) ∧
    regs (run1 [0x24, 0x10] [(0x0010, 0x40)] { start200 with a := 0x40 }) =
      some ([0x40, 0x00, 0x00, 0xFD, 0x64], 0x0202, 3) := by decide +kernel

/-- V2.16, V2.17. -/
theorem test_cmp :
    regs (run1 [0xC9, 0x20] [] { start200 with a := 0x10 }) =
      some ([0x10, 0x00, 0x00, 0xFD, 0xA4], 0x0202, 2) ∧
    regs (run1 [0xC9, 0x01] [] { start200 with a := 0x80 }) =
      some ([0x80, 0x00, 0x00, 0xFD, 0x25], 0x0202, 2) := by decide +kernel

/-- V2.18. -/
theorem test_cpx :
    regs (run1 [0xE0, 0x00] [] start200) =
      some ([0x00, 0x00, 0x00, 0xFD, 0x27], 0x0202, 2) := by decide +kernel

/-- V2.19. -/
theorem test_cpy :
    regs (run1 [0xC0, 0xFF] [] start200) =
      some ([0x00, 0x00, 0x00, 0xFD, 0x24], 0x0202, 2) := by decide +kernel

/-- V2.20. -/
theorem test_inc :
    regs (run1 [0xE6, 0x10] [(0x0010, 0xFF)] start200) =
      some ([0x00, 0x00, 0x00, 0xFD, 0x26], 0x0202, 5) ∧
    ramAt [0x0010] (run1 [0xE6, 0x10] [(0x0010, 0xFF)] start200) = [0x00] := by decide +kernel

/-- V2.21. -/
theorem test_dec :
    regs (run1 [0xC6, 0x10] [(0x0010, 0x00)] start200) =
      some ([0x00, 0x00, 0x00, 0xFD, 0xA4], 0x0202, 5) ∧
    ramAt [0x0010] (run1 [0xC6, 0x10] [(0x0010, 0x00)] start200) = [0xFF] := by decide +kernel

/-- V2.22. -/
theorem test_inx :
    regs (run1 [0xE8] [] { start200 with x := 0xFF }) =
      some ([0x00, 0x00, 0x00, 0xFD, 0x26], 0x0201, 2) := by decide +kernel

/-- R264. -/
theorem test_iny :
    regs (run1 [0xC8] [] { start200 with y := 0x7F }) =
      some ([0x00, 0x00, 0x80, 0xFD, 0xA4], 0x0201, 2) := by decide +kernel

/-- R265. -/
theorem test_dex :
    regs (run1 [0xCA] [] { start200 with x := 0x00 }) =
      some ([0x00, 0xFF, 0x00, 0xFD, 0xA4], 0x0201, 2) := by decide +kernel

/-- V2.23. -/
theorem test_dey :
    regs (run1 [0x88] [] { start200 with y := 0x01 }) =
      some ([0x00, 0x00, 0x00, 0xFD, 0x26], 0x0201, 2) := by decide +kernel

/-- V3.1, V3.5. -/
theorem test_asl :
    regs (run1 [0x0A] [] { start200 with a := 0x81 }) =
      some ([0x02, 0x00, 0x00, 0xFD, 0x25], 0x0201, 2) ∧
    regs (run1 [0x06, 0x10] [(0x0010, 0x40)] start200) =
      some ([0x00, 0x00, 0x00, 0xFD, 0xA4], 0x0202, 5) ∧
    ramAt [0x0010] (run1 [0x06, 0x10] [(0x0010, 0x40)] start200) = [0x80] := by decide +kernel

/-- V3.2. -/
theorem test_lsr :
    regs (run1 [0x4A] [] { start200 with a := 0x01 }) =
      some ([0x00, 0x00, 0x00, 0xFD, 0x27], 0x0201, 2) := by decide +kernel

/-- V3.3. -/
theorem test_rol :
    regs (run1 [0x2A] [] { start200 with a := 0x80, p := Flags.unpack 0x25 }) =
      some ([0x01, 0x00, 0x00, 0xFD, 0x25], 0x0201, 2) := by decide +kernel

/-- V3.4, V3.6. -/
theorem test_ror :
    regs (run1 [0x6A] [] { start200 with a := 0x01 }) =
      some ([0x00, 0x00, 0x00, 0xFD, 0x27], 0x0201, 2) ∧
    regs (run1 [0x7E, 0x00, 0x03] [(0x0310, 0x02)] { start200 with x := 0x10, p := Flags.unpack 0x25 }) =
      some ([0x00, 0x10, 0x00, 0xFD, 0xA4], 0x0203, 7) ∧
    ramAt [0x0310] (run1 [0x7E, 0x00, 0x03] [(0x0310, 0x02)] { start200 with x := 0x10, p := Flags.unpack 0x25 }) = [0x81] := by decide +kernel

/-- V4.1, V4.5. -/
theorem test_pha :
    regs (run1 [0x48] [] { start200 with a := 0x77 }) =
      some ([0x77, 0x00, 0x00, 0xFC, 0x24], 0x0201, 3) ∧
    ramAt [0x01FD] (run1 [0x48] [] { start200 with a := 0x77 }) = [0x77] ∧
    regs (run1 [0x48] [] { start200 with a := 0x12, sp := 0x00 }) =
      some ([0x12, 0x00, 0x00, 0xFF, 0x24], 0x0201, 3) ∧
    ramAt [0x0100] (run1 [0x48] [] { start200 with a := 0x12, sp := 0x00 }) = [0x12] := by decide +kernel

/-- V4.2. -/
theorem test_php :
    regs (run1 [0x08] [] { start200 with p := Flags.unpack 0xE3 }) =
      some ([0x00, 0x00, 0x00, 0xFC, 0xE3], 0x0201, 3) ∧
    ramAt [0x01FD] (run1 [0x08] [] { start200 with p := Flags.unpack 0xE3 }) = [0xF3] := by decide +kernel

/-- V4.3, V4.6. -/
theorem test_pla :
    regs (run1 [0x68] [(0x01FD, 0x00)] { start200 with a := 0x07, sp := 0xFC }) =
      some ([0x00, 0x00, 0x00, 0xFD, 0x26], 0x0201, 4) ∧
    regs (run1 [0x68] [(0x0100, 0x80)] { start200 with sp := 0xFF }) =
      some ([0x80, 0x00, 0x00, 0x00, 0xA4], 0x0201, 4) := by decide +kernel

/-- V4.4. -/
theorem test_plp :
    regs (run1 [0x28] [(0x01FD, 0xFF)] { start200 with sp := 0xFC }) =
      some ([0x00, 0x00, 0x00, 0xFD, 0xEF], 0x0201, 4) := by decide +kernel

/-- V5.1, V5.2. -/
theorem test_jmp :
    regs (run1 [0x4C, 0x00, 0x03] [] start200) =
      some ([0x00, 0x00, 0x00, 0xFD, 0x24], 0x0300, 3) ∧
    regs (run1 [0x6C, 0xFF, 0x03] [(0x03FF, 0x00), (0x0300, 0x04), (0x0400, 0x05)] start200) =
      some ([0x00, 0x00, 0x00, 0xFD, 0x24], 0x0400, 5) := by decide +kernel

/-- V5.3. -/
theorem test_jsr :
    regs (run1 [0x20, 0x00, 0x03] [] start200) =
      some ([0x00, 0x00, 0x00, 0xFB, 0x24], 0x0300, 6) ∧
    ramAt [0x01FD, 0x01FC] (run1 [0x20, 0x00, 0x03] [] start200) = [0x02, 0x02] := by decide +kernel

/-- V5.4. -/
theorem test_rts :
    regs (run1 [0x60] [(0x01FC, 0x02), (0x01FD, 0x03)] { start200 with sp := 0xFB }) =
      some ([0x00, 0x00, 0x00, 0xFD, 0x24], 0x0303, 6) := by decide +kernel

/-- V5.5. -/
theorem test_rti :
    regs (run1 [0x40] [(0x01FB, 0xE3), (0x01FC, 0x00), (0x01FD, 0x04)] { start200 with sp := 0xFA }) =
      some ([0x00, 0x00, 0x00, 0xFD, 0xE3], 0x0400, 6) := by decide +kernel

/-- V5.6. -/
theorem test_brk :
    regs (run1 [0x00, 0xEA] [(0xFFFE, 0x00), (0xFFFF, 0x80)] { start200 with p := Flags.unpack 0x20 }) =
      some ([0x00, 0x00, 0x00, 0xFA, 0x24], 0x8000, 7) ∧
    ramAt [0x01FD, 0x01FC, 0x01FB] (run1 [0x00, 0xEA] [(0xFFFE, 0x00), (0xFFFF, 0x80)] { start200 with p := Flags.unpack 0x20 }) = [0x02, 0x02, 0x30] := by decide +kernel

/-- V5.7, V5.8. -/
theorem test_bne :
    regs (run1 [0xD0, 0x02] [] { start200 with p := Flags.unpack 0x20 }) =
      some ([0x00, 0x00, 0x00, 0xFD, 0x20], 0x0204, 3) ∧
    regs (run1 [0xD0, 0x02] [] { start200 with p := Flags.unpack 0x22 }) =
      some ([0x00, 0x00, 0x00, 0xFD, 0x22], 0x0202, 2) := by decide +kernel

/-- V5.9. -/
theorem test_beq :
    regs (run1 [0xF0, 0xFE] [] { start200 with p := Flags.unpack 0x22 }) =
      some ([0x00, 0x00, 0x00, 0xFD, 0x22], 0x0200, 3) := by decide +kernel

/-- V5.10. -/
theorem test_bpl :
    regs (run1 [0x10, 0x80] [] { start200 with p := Flags.unpack 0x20 }) =
      some ([0x00, 0x00, 0x00, 0xFD, 0x20], 0x0182, 4) := by decide +kernel

/-- V5.11. -/
theorem test_bcs :
    regs (run1 [0xB0, 0x7F] [] { start200 with p := Flags.unpack 0x21 }) =
      some ([0x00, 0x00, 0x00, 0xFD, 0x21], 0x0281, 3) := by decide +kernel

/-- V5.12. -/
theorem test_bcc :
    regs (run1 [0x90, 0x10] [] { start200 with p := Flags.unpack 0x20 }) =
      some ([0x00, 0x00, 0x00, 0xFD, 0x20], 0x0212, 3) := by decide +kernel

/-- V5.13. -/
theorem test_bmi :
    regs (run1 [0x30, 0x10] [] { start200 with p := Flags.unpack 0xA0 }) =
      some ([0x00, 0x00, 0x00, 0xFD, 0xA0], 0x0212, 3) := by decide +kernel

/-- V5.14. -/
theorem test_bvc :
    regs (run1 [0x50, 0x10] [] { start200 with p := Flags.unpack 0x60 }) =
      some ([0x00, 0x00, 0x00, 0xFD, 0x60], 0x0202, 2) := by decide +kernel

/-- V5.15. -/
theorem test_bvs :
    regs (run1 [0x70, 0x10] [] { start200 with p := Flags.unpack 0x60 }) =
      some ([0x00, 0x00, 0x00, 0xFD, 0x60], 0x0212, 3) := by decide +kernel

/-- V6.1. -/
theorem test_clc :
    regs (run1 [0x18] [] { start200 with p := Flags.unpack 0xEF }) =
      some ([0x00, 0x00, 0x00, 0xFD, 0xEE], 0x0201, 2) := by decide +kernel

/-- V6.2. -/
theorem test_sec :
    regs (run1 [0x38] [] { start200 with p := Flags.unpack 0x20 }) =
      some ([0x00, 0x00, 0x00, 0xFD, 0x21], 0x0201, 2) := by decide +kernel

/-- V6.3. -/
theorem test_cli :
    regs (run1 [0x58] [] { start200 with p := Flags.unpack 0x24 }) =
      some ([0x00, 0x00, 0x00, 0xFD, 0x20], 0x0201, 2) := by decide +kernel

/-- V6.4. -/
theorem test_sei :
    regs (run1 [0x78] [] { start200 with p := Flags.unpack 0x20 }) =
      some ([0x00, 0x00, 0x00, 0xFD, 0x24], 0x0201, 2) := by decide +kernel

/-- V6.5. -/
theorem test_cld :
    regs (run1 [0xD8] [] { start200 with p := Flags.unpack 0x28 }) =
      some ([0x00, 0x00, 0x00, 0xFD, 0x20], 0x0201, 2) := by decide +kernel

/-- V6.6. -/
theorem test_sed :
    regs (run1 [0xF8] [] { start200 with p := Flags.unpack 0x20 }) =
      some ([0x00, 0x00, 0x00, 0xFD, 0x28], 0x0201, 2) := by decide +kernel

/-- V6.7. -/
theorem test_clv :
    regs (run1 [0xB8] [] { start200 with p := Flags.unpack 0x60 }) =
      some ([0x00, 0x00, 0x00, 0xFD, 0x20], 0x0201, 2) := by decide +kernel

/-- V6.8. -/
theorem test_nop :
    regs (run1 [0xEA] [] start200) =
      some ([0x00, 0x00, 0x00, 0xFD, 0x24], 0x0201, 2) := by decide +kernel

/-- V7.1. -/
theorem test_lax :
    regs (run1 [0xA7, 0x10] [(0x0010, 0x8F)] start200) =
      some ([0x8F, 0x8F, 0x00, 0xFD, 0xA4], 0x0202, 3) := by decide +kernel

/-- V7.2. -/
theorem test_sax :
    regs (run1 [0x87, 0x10] [] { start200 with a := 0xF0, x := 0x3C }) =
      some ([0xF0, 0x3C, 0x00, 0xFD, 0x24], 0x0202, 3) ∧
    ramAt [0x0010] (run1 [0x87, 0x10] [] { start200 with a := 0xF0, x := 0x3C }) = [0x30] := by decide +kernel

/-- V7.3. -/
theorem test_sbcU :
    regs (run1 [0xEB, 0x01] [] { start200 with p := Flags.unpack 0x25 }) =
      some ([0xFF, 0x00, 0x00, 0xFD, 0xA4], 0x0202, 2) := by decide +kernel

/-- V7.4. -/
theorem test_dcp :
    regs (run1 [0xC7, 0x10] [(0x0010, 0x41)] { start200 with a := 0x40 }) =
      some ([0x40, 0x00, 0x00, 0xFD, 0x27], 0x0202, 5) ∧
    ramAt [0x0010] (run1 [0xC7, 0x10] [(0x0010, 0x41)] { start200 with a := 0x40 }) = [0x40] := by decide +kernel

/-- V7.5. -/
theorem test_isb :
    regs (run1 [0xE7, 0x10] [(0x0010, 0x0F)] { start200 with a := 0x10, p := Flags.unpack 0x25 }) =
      some ([0x00, 0x00, 0x00, 0xFD, 0x27], 0x0202, 5) ∧
    ramAt [0x0010] (run1 [0xE7, 0x10] [(0x0010, 0x0F)] { start200 with a := 0x10, p := Flags.unpack 0x25 }) = [0x10] := by decide +kernel

/-- V7.6. -/
theorem test_slo :
    regs (run1 [0x07, 0x10] [(0x0010, 0x81)] { start200 with a := 0x01 }) =
      some ([0x03, 0x00, 0x00, 0xFD, 0x25], 0x0202, 5) ∧
    ramAt [0x0010] (run1 [0x07, 0x10] [(0x0010, 0x81)] { start200 with a := 0x01 }) = [0x02] := by decide +kernel

/-- V7.7. -/
theorem test_rla :
    regs (run1 [0x27, 0x10] [(0x0010, 0x40)] { start200 with a := 0xFF, p := Flags.unpack 0x25 }) =
      some ([0x81, 0x00, 0x00, 0xFD, 0xA4], 0x0202, 5) ∧
    ramAt [0x0010] (run1 [0x27, 0x10] [(0x0010, 0x40)] { start200 with a := 0xFF, p := Flags.unpack 0x25 }) = [0x81] := by decide +kernel

/-- V7.8. -/
theorem test_sre :
    regs (run1 [0x47, 0x10] [(0x0010, 0x03)] { start200 with a := 0xFF }) =
      some ([0xFE, 0x00, 0x00, 0xFD, 0xA5], 0x0202, 5) ∧
    ramAt [0x0010] (run1 [0x47, 0x10] [(0x0010, 0x03)] { start200 with a := 0xFF }) = [0x01] := by decide +kernel

/-- V7.9. -/
theorem test_rra :
    regs (run1 [0x67, 0x10] [(0x0010, 0x03)] { start200 with a := 0x10 }) =
      some ([0x12, 0x00, 0x00, 0xFD, 0x24], 0x0202, 5) ∧
    ramAt [0x0010] (run1 [0x67, 0x10] [(0x0010, 0x03)] { start200 with a := 0x10 }) = [0x01] := by decide +kernel

/-- V7.10, V7.11. -/
theorem test_nopU :
    regs (run1 [0x04, 0x10] [] start200) =
      some ([0x00, 0x00, 0x00, 0xFD, 0x24], 0x0202, 3) ∧
    regs (run1 [0x1C, 0xFF, 0x02] [] { start200 with x := 0x01 }) =
      some ([0x00, 0x01, 0x00, 0xFD, 0x24], 0x0203, 5) := by decide +kernel

/-- V7.13. -/
theorem test_anc :
    regs (run1 [0x0B, 0x80] [] { start200 with a := 0xFF }) =
      some ([0x80, 0x00, 0x00, 0xFD, 0xA5], 0x0202, 2) := by decide +kernel

/-- V7.14. -/
theorem test_alr :
    regs (run1 [0x4B, 0x03] [] { start200 with a := 0xFF }) =
      some ([0x01, 0x00, 0x00, 0xFD, 0x25], 0x0202, 2) := by decide +kernel

/-- V7.15, V7.16. -/
theorem test_arr :
    regs (run1 [0x6B, 0xFF] [] { start200 with a := 0xC0, p := Flags.unpack 0x25 }) =
      some ([0xE0, 0x00, 0x00, 0xFD, 0xA5], 0x0202, 2) ∧
    regs (run1 [0x6B, 0xFF] [] { start200 with a := 0x60 }) =
      some ([0x30, 0x00, 0x00, 0xFD, 0x64], 0x0202, 2) := by decide +kernel

/-- V7.17, V7.18. -/
theorem test_axs :
    regs (run1 [0xCB, 0x02] [] { start200 with a := 0x0F, x := 0xF1 }) =
      some ([0x0F, 0xFF, 0x00, 0xFD, 0xA4], 0x0202, 2) ∧
    regs (run1 [0xCB, 0x05] [] { start200 with a := 0xFF, x := 0x0F }) =
      some ([0xFF, 0x0A, 0x00, 0xFD, 0x25], 0x0202, 2) := by decide +kernel

/-- V7.19. -/
theorem test_las :
    regs (run1 [0xBB, 0x00, 0x03] [(0x0300, 0x3C)] { start200 with sp := 0xF0 }) =
      some ([0x30, 0x30, 0x00, 0x30, 0x24], 0x0203, 4) := by decide +kernel

/-- R369. -/
theorem test_sha :
    regs (run1 [0x9F, 0x00, 0x03] [] { start200 with a := 0xFF, x := 0x0C, y := 0x02, params := nmos }) =
      some ([0xFF, 0x0C, 0x02, 0xFD, 0x24], 0x0203, 5) ∧
    ramAt [0x0302] (run1 [0x9F, 0x00, 0x03] [] { start200 with a := 0xFF, x := 0x0C, y := 0x02, params := nmos }) = [0x04] := by decide +kernel

/-- R370. -/
theorem test_shx :
    regs (run1 [0x9E, 0x00, 0x03] [] { start200 with x := 0x07, y := 0x02, params := nmos }) =
      some ([0x00, 0x07, 0x02, 0xFD, 0x24], 0x0203, 5) ∧
    ramAt [0x0302] (run1 [0x9E, 0x00, 0x03] [] { start200 with x := 0x07, y := 0x02, params := nmos }) = [0x04] := by decide +kernel

/-- R371, the high byte replaced on a cross. -/
theorem test_shy :
    regs (run1 [0x9C, 0xFF, 0x02] [] { start200 with y := 0x01, x := 0x02, params := nmos }) =
      some ([0x00, 0x02, 0x01, 0xFD, 0x24], 0x0203, 5) ∧
    ramAt [0x0101] (run1 [0x9C, 0xFF, 0x02] [] { start200 with y := 0x01, x := 0x02, params := nmos }) = [0x01] := by decide +kernel

/-- R372. -/
theorem test_tas :
    regs (run1 [0x9B, 0x00, 0x03] [] { start200 with a := 0xFF, x := 0x0C, y := 0x02, params := nmos }) =
      some ([0xFF, 0x0C, 0x02, 0x0C, 0x24], 0x0203, 5) ∧
    ramAt [0x0302] (run1 [0x9B, 0x00, 0x03] [] { start200 with a := 0xFF, x := 0x0C, y := 0x02, params := nmos }) = [0x04] := by decide +kernel

/-- V7.20, V7.21, under the default parameters. -/
theorem test_unstable_refused :
    refusal (run1 [0x8B, 0x12] [] start200) = some .unstableOpcode ∧
    refusal (run1 [0x9C, 0x00, 0x03] [] start200) = some .unstableOpcode := by decide +kernel

/-- V7.23, for every value of UNSTABLE_MAGIC: with A = 0xFF the constant does not show. -/
theorem test_xaa : regs (run1 [0x8B, 0x12] [] { start200 with a := 0xFF, x := 0x0F, params := nmos }) =
    some ([0x02, 0x0F, 0x00, 0xFD, 0x24], 0x0202, 2) := by
  have h : ((0xFF : Byte) ||| Config.unstableMagic) &&& 0x0F &&& 0x12 = 0x02 := by
    generalize Config.unstableMagic = m
    revert m
    decide +kernel
  show some ([((0xFF : Byte) ||| Config.unstableMagic) &&& 0x0F &&& 0x12, 0x0F, 0x00, 0xFD,
    (Flags.atReset.setNZ (((0xFF : Byte) ||| Config.unstableMagic) &&& 0x0F &&& 0x12)).pack false], _, _) = _
  rw [h]
  decide +kernel

/-- V7.22 and V8.5: JAM, and a pending NMI of a halted CPU. -/
theorem test_jam :
    holds (fun s => s.halted && s.pc == 0x0201 && s.cycles == 1) (run1 [0x02] [] start200) = true ∧
    holds (fun s => s.nmiPending && s.pc == 0x0200 && s.cycles == 1)
      (step { start200 with halted := true, nmiPending := true }) = true := by decide +kernel

/-- V8.1. -/
theorem test_nmi :
    let r := step (withBytes [(0xFFFA, 0x00), (0xFFFB, 0x90)]
      { State.reset with pc := 0xC123, p := Flags.unpack 0x21, nmiPending := true })
    regs r = some ([0x00, 0x00, 0x00, 0xFA, 0x25], 0x9000, 7) ∧ ramAt [0x1FD, 0x1FC, 0x1FB] r = [0xC1, 0x23, 0x21] ∧
    holds (fun s => !s.nmiPending) r = true := by decide +kernel

/-- V8.2. -/
theorem test_irq :
    let r := step (withBytes [(0xFFFE, 0x00), (0xFFFF, 0xA0)]
      { State.reset with pc := 0xC123, p := Flags.unpack 0x21, irqPending := true })
    regs r = some ([0x00, 0x00, 0x00, 0xFA, 0x25], 0xA000, 7) ∧ ramAt [0x1FD, 0x1FC, 0x1FB] r = [0xC1, 0x23, 0x21] ∧
    holds (fun s => !s.irqPending) r = true := by decide +kernel

/-- V8.3, V8.4. -/
theorem test_irq_masked :
    holds (fun s => s.irqPending && s.pc == 0x0201) (run1 [0xEA] [] { start200 with irqPending := true }) = true ∧
    holds (fun s => s.irqPending && s.p.i && s.pc == 0x9000) (step (withBytes [(0xFFFA, 0x00), (0xFFFB, 0x90)]
      { start200 with irqPending := true, nmiPending := true, p := Flags.unpack 0x20 })) = true := by decide +kernel

/-- The two descriptor indices no byte selects (R160), decoded and run. -/
theorem test_synthetic_words :
    decodeTableWord 16 0x0100 = some .nmi ∧ decodeTableWord 16 0x0101 = some .irq ∧
    holds (fun s => s.sp == 0xFA && s.cycles == 7) (step (State.reset.withFetchWord 16 0x0100)) = true ∧
    holds (fun s => s.sp == 0xFA && s.cycles == 7) (step (State.reset.withFetchWord 16 0x0101)) = true := by
  decide +kernel

/-! ### Bus, PPU and session -/

/-- V9.1, V9.4, V9.8. -/
theorem test_bus :
    ([0x07FF, 0x0FFF, 0x17FF].map fun a => (memRead a (memWrite 0x1FFF 0x44 State.reset)).1) = [0x44, 0x44, 0x44] ∧
    memWrite 0x8000 0x01 State.reset = State.reset ∧
    (memRead 0x6000 (memWrite 0x6000 0x99 State.reset)).1 = 0x99 := by decide +kernel

/-- V9.5, V9.6. -/
theorem test_rom_banks :
    let prg : Memory := [(0x0000, 0x11), (0x4000, 0x22)]
    ([0x8000, 0xC000].map fun a =>
      (memRead a { State.reset with cart := { Cartridge.blank with prg := prg } }).1) = [0x11, 0x11] ∧
    (memRead 0xC000 { State.reset with cart := { Cartridge.blank with prgPages := 2, prg := prg } }).1 = 0x22 := by
  decide +kernel

/-- V9.10, V9.11. -/
theorem test_image_rejected :
    refusal (parseImage [0x4E, 0x45, 0x53, 0x1A, 0x01, 0x01, 0x10, 0x00]) = some .unsupportedMapper ∧
    parseImage [0x4E, 0x45, 0x53, 0x00] = .fault .badMagic := ⟨by decide +kernel, rfl⟩

/-- V9.12: two bytes of the page, and the instruction's cycles. -/
theorem test_oam_dma :
    let r := exec (.sta (.abs 0x4014)) (withBytes [(0x03FF, 0xFF), (0x0301, 0x01)] { start200 with a := 0x03 })
    holds (fun s => s.ppu.oam.read 0xFF == 0xFF && s.ppu.oam.read 1 == 0x01 && s.ppu.oamAddr == 0 && s.cycles == 518)
      r = true := by decide +kernel

/-- V10.1 to V10.3. -/
theorem test_scroll :
    (memWrite 0x2000 0x93 vertical).ppu.t = 0x0C00 ∧
    (let p := (writes [(0x2005, 0x7D)] vertical).ppu; p.t = 0x000F ∧ p.x = 5 ∧ p.w = true) ∧
    (let p := (writes [(0x2005, 0x7D), (0x2005, 0x5E)] vertical).ppu; p.t = 0x616F ∧ p.w = false) := by decide +kernel

/-- V10.4 to V10.6, V10.18. -/
theorem test_ppu_addr :
    (let p := (writes [(0x2006, 0x3D)] vertical).ppu; p.t = 0x3D00 ∧ p.v = 0 ∧ p.w = true) ∧
    (let p := (writes [(0x2006, 0x3D), (0x2006, 0xF0)] vertical).ppu; p.t = 0x3DF0 ∧ p.v = 0x3DF0 ∧ p.w = false) ∧
    (writes [(0x2006, 0xFF)] vertical).ppu.t = 0x3F00 ∧
    (let p := (writes [(0x2005, 0x08), (0x2006, 0x12)] vertical).ppu; p.t = 0x0012 ∧ p.v = 0x0012 ∧ p.w = false) := by
  decide +kernel

/-- V10.7, V10.8. -/
theorem test_ppu_data_is_buffered :
    let s := writes [(0x2006, 0x21), (0x2006, 0x08), (0x2007, 0xAB), (0x2007, 0xCD)] vertical
    s.ppu.ciram.read 0x108 = 0xAB ∧ s.ppu.ciram.read 0x109 = 0xCD ∧ s.ppu.v = 0x210A ∧
    reads 0x2007 3 (writes [(0x2006, 0x21), (0x2006, 0x08)] s) = [0x00, 0xAB, 0xCD] := by decide +kernel

/-- V10.9, V10.10, V10.17. -/
theorem test_ppu_data_increment_and_palette :
    (let p := (writes [(0x2000, 0x04), (0x2006, 0x20), (0x2006, 0x00), (0x2007, 1), (0x2007, 2)] vertical).ppu
     p.ciram.read 0 = 1 ∧ p.ciram.read 32 = 2 ∧ p.v = 0x2040) ∧
    (writes [(0x2006, 0x3F), (0x2006, 0x10), (0x2007, 0xFF)] vertical).ppu.palette.read 0 = 0x3F ∧
    (writes [(0x2006, 0x3F), (0x2006, 0xFF), (0x2007, 0x01)] vertical).ppu.v = 0x4000 := by decide +kernel

/-- V10.12, V10.13. -/
theorem test_oam_cursor :
    let s := writes [(0x2003, 0xFE), (0x2004, 0x11), (0x2004, 0x22), (0x2004, 0x33)] vertical
    [0xFE, 0xFF, 0x00].map s.ppu.oam.read = [0x11, 0x22, 0x33] ∧ s.ppu.oamAddr = 0x01 ∧
    reads 0x2004 2 (memWrite 0x2003 0xFF s) = [0x22, 0x22] := by decide +kernel

/-- V10.14 to V10.16, V10.20. -/
theorem test_nametable_mirroring :
    (writes [(0x2006, 0x24), (0x2006, 0x00), (0x2007, 0x77)] State.reset).ppu.ciram.read 0x000 = 0x77 ∧
    (writes [(0x2006, 0x28), (0x2006, 0x05), (0x2007, 0x66)] vertical).ppu.ciram.read 0x005 = 0x66 ∧
    (writes [(0x2006, 0x30), (0x2006, 0x05), (0x2007, 0x44)] vertical).ppu.ciram.read 0x005 = 0x44 ∧
    (memWrite 0x2000 0x80 { vertical with ppu := { vertical.ppu with vblank := true } }).nmiPending = false := by
  decide +kernel

/-- V11.1 to V11.9. -/
theorem test_vram_updates :
    [0x0005, 0x001F, 0x041F].map incCoarseX = [0x0006, 0x0400, 0x0000] ∧
    [0x0000, 0x73A0, 0x7BA0, 0x73E0, 0x70A0].map incY = [0x1000, 0x0800, 0x0000, 0x0000, 0x00C0] ∧
    copyX 0x7FFF 0x0000 = 0x7BE0 := by decide +kernel

/-- V11.17, V11.22. -/
theorem test_sprites_on_line :
    let at10 : Ppu := { Ppu.atPowerOn with oam := [(0, 0x10)] }
    [0x10, 0x11, 0x18, 0x19].map (fun sl => (spritesOn at10 sl).contains (0, sl - 0x11)) = [false, true, true, false] ∧
    (spritesOn { Ppu.atPowerOn with oam := (List.range 10).map fun k => (4 * k, 0x20) } 0x21).map Prod.fst =
      [0, 1, 2, 3, 4, 5, 6, 7] := by decide +kernel

/-- V11.14 to V11.16: the row addresses of sprite patterns. -/
theorem test_sprite_patterns :
    let tall : Ppu := { Ppu.atPowerOn with ctrl := 0x20 }
    spritePatternAddr tall 0x25 0x00 9 = 0x1251 ∧ spritePatternAddr tall 0x25 0x80 9 = 0x1246 ∧
    spritePatternAddr Ppu.atPowerOn 0x10 0x00 2 = 0x0102 := by decide +kernel

/-- V11.18 to V11.21. -/
theorem test_composite :
    composite (2, 1) (some ⟨3, 2, false, false⟩) = 0x1B ∧ composite (2, 1) (some ⟨3, 2, true, false⟩) = 0x06 ∧
    composite (0, 1) none = 0x00 ∧ composite (0, 1) (some ⟨1, 0, true, false⟩) = 0x11 := by decide +kernel

/-- V12.1, V12.2, V12.5. -/
theorem test_ticks :
    (let p := (ppuTicks 21 State.reset).ppu; p.scanline = 0 ∧ p.dot = 21) ∧
    (let p := (ppuTick { State.reset with ppu := { Ppu.atPowerOn with dot := 340 } }).ppu; p.scanline = 1 ∧ p.dot = 0) ∧
    (let p := (ppuTick { State.reset with
      ppu := { Ppu.atPowerOn with scanline := 261, dot := 1, vblank := true, s0hit := true } }).ppu
     p.vblank = false ∧ p.s0hit = false) := by decide +kernel

/-- V12.3, V12.4. -/
theorem test_frame_events :
    (let p := (ppuTick { State.reset with
      ppu := { Ppu.atPowerOn with scanline := 261, dot := 340, mask := 0x08, t := 0x1234 } }).ppu
     p.v = 0x1234 ∧ p.frameReady = true ∧ p.scanline = 0 ∧ p.dot = 0) ∧
    (let t := ppuTick { State.reset with
      ppu := { Ppu.atPowerOn with scanline := 241, dot := 1, ctrl := 0x80, s0hit := true } }
     t.nmiPending = true ∧ t.ppu.vblank = true ∧ t.ppu.s0hit = false ∧ t.ppu.dot = 2) := by decide +kernel

/-- R30, R34, R500, D48: the boot sequence of R503 with a drawn palette byte 0xFF; no step before `start()`. -/
theorem test_boot_phases :
    let s := powerOn Params.atReset Cartridge.blank
      { a := 0x12, x := 0x34, y := 0x56, sp := 0x78, pc := 0x9ABC, p := Flags.unpack 0xFF, totalCycles := 9, ram := [0x11]
        prgRam := [], chrRam := [0x22], oam := [], palette := [0xFF], ciram := [] }
    refusal (step s) = some .beforeReset ∧ refusal (step (start s)) = some .beforeReset ∧
    refusal (step (cpuReset s)) = some .beforeStart ∧
    (let t := start (cpuReset s)
     t.phase = .running ∧ t.a = 0 ∧ t.ram.read 0 = 0x11 ∧ ppuRead t.cart t.ppu 0x0000 = 0x22 ∧
     ppuRead t.cart t.ppu 0x3F00 = 0x3F) := by decide +kernel

/-- P6: buttons 0x03 read as 1, 1, 0, 0, 0, 0, 0, 0 in bit 0, and then 1 (R472). -/
theorem test_controller :
    let s := writes [(0x4016, 1), (0x4016, 0)] (applyHost (.buttons .one 0x03) State.reset)
    ((afterReads 0x4016 7 s).pads.pad1.shift, (afterReads 0x4016 8 s).pads.pad1.shift, s.pads.pad1.shift) =
      (0xFE, 0xFF, 0x03) := by decide +kernel

/-! ### States that meet the hypotheses of the statements -/

/-- An LDA absolute at 0x0200, the lines clear. -/
def atLda : State := placeBytes 0x0200 [0xAD, 0x34, 0x12] start200

/-- NOP at 0x0200, the PPU one dot before the vblank dot and NMIs enabled. -/
def beforeVblank : State :=
  { placeBytes 0x0200 [0xEA] start200 with ppu := { Ppu.atPowerOn with scanline := 241, dot := 0, ctrl := 0x80 } }

/-- NOP at 0x0200, the PPU in the last dot of a frame. -/
def lastDot : State := { placeBytes 0x0200 [0xEA] start200 with ppu := { Ppu.atPowerOn with scanline := 261, dot := 340 } }

/-- An outcome is a next state. -/
def isNext {α : Type} : Host.Outcome α Fault Refusal → Bool
  | .next _ => true
  | .fault _ | .refused _ => false

theorem witness_DecodeOfEncode :
    [Instr.lda (.imm 0x00), .sta (.abs 0xFFFF), .nopU 0xFC (some (.abx 0x1234)), .jam 0xF2].all
      (fun i => i.wf && i.fetchable) = true := by decide +kernel

theorem witness_EncodeOfDecode : decode [0x65, 0x10, 0xEA] = .ok (.adc (.zp 0x10), [0xEA]) := rfl

theorem witness_EveryByteDecodes :
    ([] : List Byte).length < (descriptor 0xA9).mode.operandBytes ∧
    [(0x12 : Byte)].length < (descriptor 0xAD).mode.operandBytes := by decide +kernel

/-- With both lines clear, and with a masked IRQ; exec answers a next state. -/
theorem witness_StepRunsDecodedInstruction :
    (∃ u, fetchBytes 3 { atLda with cycles := 0 } = ([0xAD, 0x34, 0x12], u) ∧ isNext (exec (.lda (.abs 0x1234)) u) = true) ∧
    decode [0xAD, 0x34, 0x12] = .ok (.lda (.abs 0x1234), []) ∧
    atLda.phase = .running ∧ atLda.halted = false ∧ atLda.nmiPending = false ∧ atLda.irqPending = false ∧
    (let m := { atLda with irqPending := true }
     (m.phase = .running ∧ m.halted = false ∧ m.nmiPending = false ∧ m.p.i = true) ∧
     (fetchBytes 3 { m with cycles := 0 }).1 = [0xAD, 0x34, 0x12]) := by
  refine ⟨⟨(fetchBytes 3 { atLda with cycles := 0 }).2, ?_, ?_⟩, rfl, ?_⟩
  · exact Prod.ext (by decide +kernel) rfl
  · decide +kernel
  · decide +kernel

/-- One state per clause: halted; NMI; IRQ unmasked; IRQ masked, the step answering a next state. -/
theorem witness_InterruptPoll :
    start200.phase = .running ∧ { start200 with halted := true }.halted = true ∧
    (let s := { start200 with nmiPending := true }; s.halted = false ∧ s.nmiPending = true) ∧
    (let s := { start200 with irqPending := true, p := Flags.unpack 0 }
     s.halted = false ∧ s.nmiPending = false ∧ s.irqPending = true ∧ s.p.i = false) ∧
    (let s := { atLda with irqPending := true }
     s.halted = false ∧ s.nmiPending = false ∧ s.irqPending = true ∧ s.p.i = true ∧ isNext (step s) = true) := by
  decide +kernel

/-- At the first and at the last dot of a frame. -/
theorem witness_StepAdvancesThreeDotsACycle :
    (atLda.ppu.dot = 0 ∧ atLda.ppu.scanline = 0 ∧ isNext (step atLda) = true) ∧
    (lastDot.ppu.dot = 340 ∧ lastDot.ppu.scanline = 261 ∧ isNext (step lastDot) = true) := by decide +kernel

/-- A step that raises the line, one that does not, and a halted CPU that keeps it. -/
theorem witness_NmiLineSetOnlyByVblank :
    (beforeVblank.ppu.dot < 341 ∧ beforeVblank.ppu.scanline < 262 ∧ holds State.nmiPending (step beforeVblank) = true) ∧
    holds (fun t => !t.nmiPending) (step lastDot) = true ∧
    holds State.nmiPending (step { start200 with halted := true, nmiPending := true }) = true := by decide +kernel

theorem witness_FrameTiming : State.reset.ppu.dot = 0 ∧ State.reset.ppu.scanline = 0 := by decide +kernel

/-- A dot of each event, the last dot of a line and of the frame, and rendering on and off. -/
theorem witness_PpuTickEffect :
    let placed (scanline dot : Nat) (mask : Byte) : State :=
      { State.reset with ppu := { Ppu.atPowerOn with scanline := scanline, dot := dot, mask := mask } }
    [placed 0 0 0, placed 0 256 0x08, placed 239 256 0, placed 239 340 0, placed 241 1 0, placed 261 1 0,
      placed 261 340 0x10, placed 261 340 0].all (fun s => decide (s.ppu.dot < 341 ∧ s.ppu.scanline < 262)) = true ∧
    State.reset.params.renderDot.val = 256 ∧ dotPos (placed 241 1 0).ppu = vblankDot ∧
    dotPos (placed 261 1 0).ppu = preRenderDot ∧ dotPos (placed 261 340 0).ppu = lastDotOfFrame := by decide +kernel

theorem witness_StepKeepsOk : atLda.ok = true ∧ isNext (step atLda) = true := by decide +kernel

theorem witness_RunsForeverUnderNmos :
    let s := { start200 with params := nmos }
    s.phase = .running ∧ s.params.unstableMode = .nmos := by decide +kernel

/-- The first of the seven opcodes under refuse; the step is refused. -/
theorem witness_RefusesOnlyUnstableOpcodes :
    let s := placeBytes 0x0200 [0x8B, 0x12] start200
    s.phase = .running ∧ s.params.unstableMode = .refuse ∧ s.halted = false ∧ s.nmiPending = false ∧ s.irqPending = false ∧
    (memRead s.pc { s with cycles := 0 }).1 ∈ unstableLine ∧ refusal (step s) = some .unstableOpcode := by decide +kernel

/-- A state in each phase, a step that answers next, and a host input that is no reset. -/
theorem witness_NoRegisterReadBeforeReset :
    { State.reset with phase := .poweredOn }.phase = .poweredOn ∧
    { State.reset with phase := .afterReset }.phase = .afterReset ∧ atLda.phase = .running ∧
    isNext (step atLda) = true ∧ HostInput.takeFrame ≠ .reset := by decide +kernel

/-- With CHR-ROM and without. -/
theorem witness_StepKeepsCartridge :
    isNext (step atLda) = true ∧
    (let s := { atLda with cart := { Cartridge.blank with chrPages := 1 } }
     s.cart.chrPages ≠ 0 ∧ isNext (step s) = true) := by decide +kernel

theorem witness_RamIsMirrored :
    (0x0000 : Addr).toNat < 0x2000 ∧ (0x1FFF : Addr).toNat < 0x2000 ∧ State.reset.ram.wf = true ∧
    (0x1FFF : Addr).toNat % 0x800 = (0x07FF : Addr).toNat % 0x800 := by decide +kernel

theorem witness_RomWindow : 0x8000 ≤ (0x8000 : Addr).toNat ∧ 0x8000 ≤ (0xFFFF : Addr).toNat := by decide +kernel

/-- The ends of each range, and both PRG-RAM modes. -/
theorem witness_UndrivenAddresses :
    [(0x4000 : Addr), 0x4014, 0x4015, 0x4018, 0x5FFF].all (fun a =>
      decide (0x4000 ≤ a.toNat ∧ a.toNat < 0x6000 ∧ a ≠ 0x4016 ∧ a ≠ 0x4017)) = true ∧
    [(0x4000 : Addr), 0x4013, 0x4015, 0x4017, 0x5FFF].all (fun a =>
      decide (0x4000 ≤ a.toNat ∧ a.toNat < 0x6000 ∧ a ≠ 0x4014 ∧ a ≠ 0x4016)) = true ∧
    [(0x2000 : Addr), 0x2001, 0x2003, 0x2005, 0x2006, 0x3FF8, 0x3FFE].all (fun a =>
      decide (0x2000 ≤ a.toNat ∧ a.toNat < 0x4000 ∧ a.toNat % 8 ∈ [0, 1, 3, 5, 6])) = true ∧
    [(0x2002 : Addr), 0x3FFA].all (fun a =>
      decide (0x2000 ≤ a.toNat ∧ a.toNat < 0x4000 ∧ a.toNat % 8 = 2)) = true ∧
    [(0x6000 : Addr), 0x7FFF].all (fun a => decide (0x6000 ≤ a.toNat ∧ a.toNat < 0x8000)) = true ∧
    State.reset.params.prgRamMode = .ram ∧ { Params.atReset with prgRamMode := .stub }.prgRamMode = .stub := by
  decide +kernel

/-- Stored bytes at the ends of the ranges; addresses with no side effect. -/
theorem witness_ReadSideEffects :
    [(0x0000 : Addr), 0x1FFF, 0x6000, 0x7FFF, 0x8000, 0xFFFF].all (fun a => peek State.reset a == some 0) = true ∧
    [(0x2000 : Addr), 0x2004, 0x3FFE, 0x4015, 0x4018].all (fun a =>
      decide (¬ (0x2000 ≤ a.toNat ∧ a.toNat < 0x4000 ∧ (a.toNat % 8 = 2 ∨ a.toNat % 8 = 7)) ∧
        a ≠ 0x4016 ∧ a ≠ 0x4017)) = true := by
  decide +kernel

/-- A store to RAM with another byte outside it, a store to a PPU register, and a form that stores nothing. -/
theorem witness_InstructionMemoryFrame :
    ((Instr.sta (.abs 0x0300)).wf = true ∧ isNext (exec (.sta (.abs 0x0300)) start200) = true ∧
      storedAt (.sta (.abs 0x0300)) start200 = [0x0300] ∧ busDecode 0x0301 ≠ busDecode 0x0300) ∧
    ((Instr.sta (.abs 0x2007)).wf = true ∧ isNext (exec (.sta (.abs 0x2007)) start200) = true ∧
      busDecode 0x0000 ≠ busDecode 0x2007) ∧
    (storedAt (.asl .acc) start200 = [] ∧ isNext (exec (.asl .acc) start200) = true) := by decide +kernel

/-- NOP meets the premise of every clause but those of its own mode. -/
theorem witness_InstructionRegisterFrame :
    Instr.nop.wf = true ∧ isNext (exec .nop start200) = true ∧ Instr.nop.mode ≠ .acc ∧
    Instr.nop.mnemonic ∉ [Mnemonic.lda, .ldx, .ldy, .txs, .jmp, .adc, .clv, .sed, .sei, .clc, .jam, .nmi, .irq] := by
  decide +kernel

/-- Inside a page, across a page, and at the top of the address space. -/
theorem witness_WordReadsAreLittleEndian :
    [(0x0000 : Addr), 0x00FF, 0x1234, 0xFFFF].all (fun a =>
      (peek State.reset a).isSome && (peek State.reset (BitVec.ofNat 16 ((a.toNat + 1) % 65536))).isSome &&
        (peek State.reset (BitVec.ofNat 16 (a.toNat / 256 * 256 + (a.toNat + 1) % 256))).isSome) = true := by
  decide +kernel

theorem witness_StackWrapsInPageOne :
    (List.replicate 256 (0xAA : Byte)).length ≤ 256 ∧ State.reset.ram.wf = true ∧
    { start200 with sp := 0x00 }.sp = 0x00 ∧ { start200 with sp := 0xFF }.sp = 0xFF := by
  refine ⟨by rw [List.length_replicate], ?_⟩
  decide +kernel

/-- The entries and the returns answer next states, in the very state the entry leaves. -/
theorem witness_ReturnsUndoEntries :
    start200.ram.wf = true ∧
    holds (fun t => isNext (exec .rts t)) (exec (.jsr 0x0300) start200) = true ∧
    holds (fun t => isNext (exec .rti t)) (exec .nmi start200) = true ∧
    holds (fun t => isNext (exec .rti t)) (exec .irq start200) = true ∧
    holds (fun t => isNext (exec .rti t)) (exec .brk start200) = true := by decide +kernel

/-- One operand of each mode, for the "Encoding" lines. -/
def sampleOperands : List Operand :=
  [.acc, .imm 0xFF, .zp 0xFF, .zpx 0xFF, .zpy 0xFF, .abs 0xFFFF, .abx 0xFFFF, .aby 0xFFFF, .izx 0xFF, .izy 0xFF]

/-- Every entry of a list of "Encoding" lines has an operand of its mode. -/
def everyEntryHasOperand (lines : List (List Enc)) : Bool :=
  lines.all fun line => line.length != 0 && line.all fun e => sampleOperands.any fun o => o.mode == e.mode

theorem witness_LoadsSetRegisterAndFlags : everyEntryHasOperand [ldaLine, ldxLine, ldyLine, laxLine] = true := by
  decide +kernel

theorem witness_StoresWriteOneByte : everyEntryHasOperand [staLine, stxLine, styLine, saxLine] = true := by
  decide +kernel

theorem witness_AddAndSubtract : everyEntryHasOperand [adcLine, sbcLine] = true := by decide +kernel

theorem witness_LogicAndBit : everyEntryHasOperand [andLine, oraLine, eorLine, bitLine] = true := by decide +kernel

theorem witness_ComparesSetFlagsOnly : everyEntryHasOperand [cmpLine, cpxLine, cpyLine] = true := by decide +kernel

theorem witness_IncrementAndDecrement : everyEntryHasOperand [incLine, decLine] = true := by decide +kernel

theorem witness_ShiftsAndRotates : everyEntryHasOperand [aslLine, lsrLine, rolLine, rorLine] = true := by decide +kernel

theorem witness_CombinedModifyAndAccumulate :
    everyEntryHasOperand [sloLine, rlaLine, sreLine, rraLine, dcpLine, isbLine] = true := by decide +kernel

theorem witness_UndocumentedNops : everyEntryHasOperand [nopLine] = true ∧ nopImplied.length = 6 := by decide +kernel

theorem witness_ImmediateCombinations : (0x2B : Byte) ∈ [(0x0B : Byte), 0x2B] := by decide +kernel

/-- Both modes, and an operand of each form of SHA. -/
theorem witness_UnstableOpcodes :
    everyEntryHasOperand [shaLine] = true ∧ { start200 with params := nmos }.params.unstableMode = .nmos ∧
    start200.params.unstableMode = .refuse := by decide +kernel

/-- A halted CPU with a pending NMI, at the last dot of a frame. -/
theorem witness_JamHaltsForGood :
    jamLine.length = 12 ∧
    (let s := { lastDot with halted := true, nmiPending := true }
     s.phase = .running ∧ s.halted = true ∧ s.ppu.dot < 341 ∧ s.ppu.scanline < 262 ∧ s.nmiPending = true) := by decide +kernel

/-- Each register at its first address and at its last mirror. -/
theorem witness_PpuRegisterWrites :
    ∀ k ∈ [1, 3, 4], ∀ a ∈ [0x2000 + k, 0x3FF8 + k],
      0x2000 ≤ (BitVec.ofNat 16 a : Addr).toNat ∧ (BitVec.ofNat 16 a : Addr).toNat < 0x4000 ∧
      (BitVec.ofNat 16 a : Addr).toNat % 8 = k := by decide +kernel

/-- The three registers at their first address and last mirror, and both values of the toggle. -/
theorem witness_ScrollAndAddressWrites :
    (∀ k ∈ [0, 5, 6], ∀ a ∈ [0x2000 + k, 0x3FF8 + k],
      0x2000 ≤ (BitVec.ofNat 16 a : Addr).toNat ∧ (BitVec.ofNat 16 a : Addr).toNat < 0x4000 ∧
      (BitVec.ofNat 16 a : Addr).toNat % 8 = k) ∧
    State.reset.ppu.w = false ∧ (memWrite 0x2005 0 State.reset).ppu.w = true := by decide +kernel

theorem witness_PpuDataRegisters :
    ∀ k ∈ [2, 4, 7], ∀ a ∈ [0x2000 + k, 0x3FF8 + k],
      0x2000 ≤ (BitVec.ofNat 16 a : Addr).toNat ∧ (BitVec.ofNat 16 a : Addr).toNat < 0x4000 ∧
      (BitVec.ofNat 16 a : Addr).toNat % 8 = k := by decide +kernel

/-- Two addresses of one target and two of different ones, and the ends of the palette. -/
theorem witness_PpuSpaceMirroring :
    State.reset.ppu.ciram.wf = true ∧ State.reset.ppu.palette.wf = true ∧ State.reset.cart.chr.wf = true ∧
    ppuDecode .horizontal 0x3F10 = ppuDecode .horizontal 0x3FE0 ∧
    ppuDecode .horizontal 0x2000 ≠ ppuDecode .horizontal 0x2800 ∧
    [(0x3F00 : PpuAddr), 0x3FFF].all (fun a => decide (0x3F00 ≤ a.toNat)) = true := by decide +kernel

/-- The first page, the last page of RAM and the last page of all; the ends of the pages nothing answers, the last two
in a stub PRG-RAM window. -/
theorem witness_OamDmaCopiesPage :
    State.reset.ppu.oam.wf = true ∧
    (∀ page ∈ [(0x00 : Byte), 0x1F, 0xFF], ∀ i < 256,
      (peek State.reset (BitVec.ofNat 16 (page.toNat * 256 + i))).isSome = true) ∧
    (∀ page ∈ [(0x41 : Byte), 0x5F], 0x41 ≤ page.toNat ∧ page.toNat ≤ 0x5F) ∧
    (∀ page ∈ [(0x60 : Byte), 0x7F], 0x60 ≤ page.toNat ∧ page.toNat ≤ 0x7F) ∧
    { State.reset with params := { Params.atReset with prgRamMode := .stub } }.params.prgRamMode = .stub := by
  decide +kernel

theorem witness_ControllersShiftOutButtons :
    (0x01 : Byte).getLsbD 0 = true ∧ (0xFE : Byte).getLsbD 0 = false ∧ isNext (step atLda) = true := by decide +kernel

/-- The three cases at the columns where they meet. -/
theorem witness_BackgroundPixels :
    (let p := { Ppu.atPowerOn with mask := 0x0A }; p.mask.getLsbD 3 = true ∧ p.mask.getLsbD 1 = true) ∧
    (let p := { Ppu.atPowerOn with mask := 0x08 }
     p.mask.getLsbD 3 = true ∧ p.mask.getLsbD 1 = false ∧ 7 < 8 ∧ 8 ≤ 8 ∧ 8 < 256 ∧ 255 < 256) ∧
    Ppu.atPowerOn.mask.getLsbD 3 = false := by decide +kernel

/-- A sprite on the line, with none before it. -/
theorem witness_FirstEightSprites :
    spriteOn { Ppu.atPowerOn with oam := [(0, 0x10)] } 0x11 0 = true ∧
    (0, 0) ∈ spritesOn { Ppu.atPowerOn with oam := [(0, 0x10)] } 0x11 := by
  decide +kernel

/-- Two sprites of one tile row whose leftmost pixel is opaque, the first at column 7, the second at column 248: none
under the left-column mask, entry 0 without it, and the last column of the second. -/
def twoSprites (mask : Byte) : Ppu :=
  { Ppu.atPowerOn with mask := mask, oam := [(0, 0x10), (3, 0x07), (4, 0x10), (6, 0x60), (7, 0xF8)] }

/-- Pattern RAM whose tile 0 has the planes 0x80 and 0x00 in its first row. -/
def leftPixel : Cartridge := { Cartridge.blank with chr := [(0, 0x80)] }

/-- Both values of the mask's sprite bit; at the columns where the cases meet, a pixel of the first sprite, of the second,
and none. -/
theorem witness_SpritePixels :
    Ppu.atPowerOn.mask.getLsbD 4 = false ∧ (twoSprites 0x10).mask.getLsbD 4 = true ∧
    spriteShown (twoSprites 0x10) 0x11 0 = true ∧ spriteShown (twoSprites 0x10) 0x11 1 = true ∧
    spritePixelAt leftPixel (twoSprites 0x14) 0x11 0 7 = some ⟨1, 0, false, true⟩ ∧
    spritePixelAt leftPixel (twoSprites 0x10) 0x11 0 7 = none ∧ spritePixelAt leftPixel (twoSprites 0x14) 0x11 0 8 = none ∧
    spritePixelAt leftPixel (twoSprites 0x10) 0x11 1 255 = some ⟨1, 0, true, false⟩ ∧
    spritePixelAt leftPixel (twoSprites 0x10) 0x11 1 248 = none := by decide +kernel

theorem witness_CompositePriority : (1 : BitVec 2) ≠ 0 := by decide +kernel

/-- Both heights at the ends of their rows, the lines that have no row, rendering off and on, pixels in the last column,
and a written and an unwritten row of the frame. -/
theorem witness_LineRendering :
    (shownIn .h240 0 0 ∧ shownIn .h240 239 239 ∧ ¬ shownIn .h240 0 1 ∧ shownIn .h224 8 0 ∧ shownIn .h224 231 223 ∧
      ∀ sl ∈ [0, 7, 232, 239], ∀ row, ¬ shownIn .h224 sl row) ∧
    rendering Ppu.atPowerOn = false ∧
    (let p := { Ppu.atPowerOn with mask := 0x18 }
     framePixel { p with fb := [(1, List.replicate 256 0x21)] } 1 255 = some 0x21 ∧ framePixel p 1 255 = none ∧
     rendering p = true ∧ (backgroundRow Cartridge.blank p)[255]? = some (0, 0) ∧
     (spriteRow Cartridge.blank p 0)[255]? = some none) := by
  refine ⟨?_, by decide +kernel⟩
  simp [shownIn]

/-- An accepted image: one blank PRG page, no CHR page, horizontal mirroring. -/
def blankImage : List Byte :=
  [0x4E, 0x45, 0x53, 0x1A, 0x01, 0x00, 0x00, 0x00, 0, 0, 0, 0, 0, 0, 0, 0] ++ List.replicate 16384 0

/-- An accepted image: one blank PRG page, one blank CHR page, four-screen. -/
def chrImage : List Byte :=
  [0x4E, 0x45, 0x53, 0x1A, 0x01, 0x01, 0x08, 0x00, 0, 0, 0, 0, 0, 0, 0, 0] ++ List.replicate 24576 0

theorem blankImage_accepted : parseImage blankImage = .next (imageCartridge blankImage) := by
  have hp : (imageCartridge blankImage).prgPages = 1 := by rfl
  have hc : (imageCartridge blankImage).chrPages = 0 := by rfl
  have hl : blankImage.length = 16400 := by
    rw [blankImage, List.length_append, List.length_replicate]
    rfl
  have hb : bodyStart (headerByte blankImage 6) = 16 := by rfl
  unfold parseImage
  simp only [hp, hc, hl, hb]
  rw [if_neg (fun h => h rfl), if_neg (fun h => h rfl), if_neg (by omega), if_neg (by omega), if_neg (by omega)]

theorem chrImage_accepted : parseImage chrImage = .next (imageCartridge chrImage) := by
  have hp : (imageCartridge chrImage).prgPages = 1 := by rfl
  have hc : (imageCartridge chrImage).chrPages = 1 := by rfl
  have hl : chrImage.length = 24592 := by
    rw [chrImage, List.length_append, List.length_replicate]
    rfl
  have hb : bodyStart (headerByte chrImage 6) = 16 := by rfl
  unfold parseImage
  simp only [hp, hc, hl, hb]
  rw [if_neg (fun h => h rfl), if_neg (fun h => h rfl), if_neg (by omega), if_neg (by omega), if_neg (by omega)]

/-- With CHR-RAM and two nametable banks; with CHR-ROM and four. -/
theorem witness_ResetAndBoot :
    (∃ cart, parseImage blankImage = .next cart ∧ cart.chrPages = 0 ∧ cart.mirroring ≠ .fourScreen) ∧
    (∃ cart, parseImage chrImage = .next cart ∧ cart.chrPages ≠ 0 ∧ cart.mirroring = .fourScreen) :=
  ⟨⟨_, blankImage_accepted, rfl, by decide⟩, ⟨_, chrImage_accepted, by decide, rfl⟩⟩

/-- Accepted images, and one whose magic is wrong. -/
theorem witness_ImageLoading :
    (∃ cart, parseImage blankImage = .next cart) ∧ (∃ cart, parseImage chrImage = .next cart) ∧
    ([0x4E, 0x45, 0x53, 0x00] : List Byte).take 4 ≠ [0x4E, 0x45, 0x53, 0x1A] :=
  ⟨⟨_, blankImage_accepted⟩, ⟨_, chrImage_accepted⟩, by decide +kernel⟩

end Sys2Proof.Tests
end

section
/-! PROOFS. Internal RAM: a write through one of its mirrors, read through any (R72). -/

namespace Sys2Proof.Machine

/-- One byte of a canonical store after one write. -/
theorem Memory.read_write {m : Memory} (h : m.wf = true) (k j : Nat) (b : Byte) :
    (m.write k b).read j = if j = k then b else m.read j := by
  split
  next hjk => subst hjk; exact Memory.read_write_same h j b
  next hjk => exact Memory.read_write_other m b hjk

/-- A read of internal RAM after a write to it: the written byte at each mirror, and what was read before elsewhere. -/
theorem memRead_memWrite_of_ram {a b : Addr} {s : State} (ha : a.toNat < 0x2000) (hb : b.toNat < 0x2000)
    (hwf : s.ram.wf = true) (v : Byte) :
    (memRead b (memWrite a v s)).1 = if b.toNat % 0x800 = a.toNat % 0x800 then v else (memRead b s).1 := by
  rw [memWrite_of_ram ha, memRead_of_ram hb, memRead_of_ram hb, State.setRam_ram]
  exact Memory.read_write hwf _ _ v

/-- Settles O18: an address below 0x2000 decodes to the RAM byte at its residue, and a store answers the last write. -/
theorem ramIsMirrored : Obligations.RamIsMirrored :=
  fun s _ v ha => ⟨memRead_of_ram ha s, memWrite_of_ram ha v s, fun hwf _ hb => memRead_memWrite_of_ram ha hb hwf v⟩

end Sys2Proof.Machine
end

section
/-! PROOFS. The operand of a reading instruction in the terms of the statements, and what an entry of an "Encoding" line
gives once it is a row of the table: its decoding and its cost (R157, R162, R198, R199). -/

namespace Sys2Proof.Claims

open Sys2Proof.Machine

/-- The place an operand resolves to holds the operand's value (R162). -/
theorem readLoc_resolve (o : Operand) (s : State) : readLoc (resolve o s).1 s = readOf o s := by
  cases o with
  | izx _ | izy _ => simp only [resolve, read16Page_zeroPage]; rfl
  | acc | imm _ | zp _ | zpx _ | zpy _ | abs _ | abx _ | aby _ => rfl

/-- The place an operand resolves to says whether the operand crosses a page (R150, R151, R154). -/
theorem crossed_resolve (o : Operand) (s : State) : (resolve o s).1.crossed = crosses o s := by
  cases o with
  | acc | imm _ => exact (bne_self_eq_false _).symm
  | izx _ | izy _ => simp only [resolve, read16Page_zeroPage]; rfl
  | zp _ | zpx _ | zpy _ | abs _ | abx _ | aby _ => rfl

/-- Reading an operand charges nothing by itself (R80). -/
theorem readOf_cycles (o : Operand) (s : State) : (readOf o s).2.cycles = s.cycles := by
  rw [← readLoc_resolve]
  exact (readLoc_frame _ s).cycles

/-- `Operand()` with its row charged: the value, and the state after the one read with the row's cycles (R162, R198). -/
theorem loadOperand_eq (m : Mnemonic) (o : Operand) (s : State) :
    loadOperand m o s = ((readOf o s).1,
      { (readOf o s).2 with cycles := s.cycles + (baseCycles m o.mode + pagePenalty m o.mode (crosses o s)) }) := by
  simp only [loadOperand, resolve_snd, readLoc_resolve, crossed_resolve]
  rw [← readOf_cycles o s]
  rfl

/-- An entry of an "Encoding" line is the row of R157 that its opcode indexes, and the row of m charges its cost. -/
def Enc.isRowOf (m : Mnemonic) (e : Enc) : Bool :=
  descriptor e.op == ⟨m, e.mode, e.base, e.pen⟩ && baseCycles m e.mode == e.base && hasPenalty m e.mode == e.pen

theorem Enc.isRowOf_iff {m : Mnemonic} {e : Enc} :
    e.isRowOf m = true ↔
      descriptor e.op = ⟨m, e.mode, e.base, e.pen⟩ ∧ baseCycles m e.mode = e.base ∧ hasPenalty m e.mode = e.pen := by
  simp only [Enc.isRowOf, Bool.and_eq_true, beq_iff_eq, and_assoc]

/-- The opcode byte of a row and the bytes of an operand of its mode decode to the term its mnemonic assembles. -/
theorem Enc.decode_of_isRowOf {m : Mnemonic} {e : Enc} (h : e.isRowOf m = true) {o : Operand} (ho : o.mode = e.mode) :
    decode (e.op :: o.bytes) = .ok (assemble m o.mode e.op (o.bytes.getD 0 0) (o.bytes.getD 1 0), []) := by
  obtain ⟨hrow, -, -⟩ := Enc.isRowOf_iff.mp h
  have hd := decode_operand e.op m o (by rw [hrow]) (by rw [hrow, ho]) []
  rwa [List.append_nil] at hd

/-- The cost of a row is what its meaning charges (R198, R199). -/
theorem Enc.cost_of_isRowOf {m : Mnemonic} {e : Enc} (h : e.isRowOf m = true) {o : Operand} (ho : o.mode = e.mode)
    (s : State) : e.cost o s = baseCycles m o.mode + pagePenalty m o.mode (crosses o s) := by
  obtain ⟨-, hbase, hpen⟩ := Enc.isRowOf_iff.mp h
  rw [Enc.cost, pagePenalty, ho, hbase, hpen]

/-- What makes a mnemonic a reading instruction: its line holds rows of the table, its rows assemble to the term, and
the term's meaning is the effect applied to the loaded operand. -/
theorem reads_of_rows {line : List Enc} {m : Mnemonic} {mk : Byte → Operand → Instr} {eff : Byte → State → State}
    (hrows : ∀ e ∈ line, e.isRowOf m = true)
    (hterm : ∀ op o, assemble m o.mode op (o.bytes.getD 0 0) (o.bytes.getD 1 0) = mk op o)
    (hexec : ∀ op o s, exec (mk op o) s = .next (eff (loadOperand m o s).1 (loadOperand m o s).2)) :
    Reads line mk eff := by
  intro e he o s ho
  have hrow := hrows e he
  constructor
  · rw [Enc.decode_of_isRowOf hrow ho, hterm]
  · rw [hexec, loadOperand_eq, Enc.cost_of_isRowOf hrow ho]

/-- A one-byte instruction whose meaning is an effect with the base cost of its row charged (R198). -/
theorem implied_of_charged {op : Byte} {i : Instr} {m : Mnemonic} {eff : State → State}
    (hdecode : decode [op] = .ok (i, [])) (hexec : ∀ s, exec i s = .next (chargeBase m .imp (eff s))) :
    Implied op i (fun s => { eff s with cycles := (eff s).cycles + baseCycles m .imp }) :=
  ⟨hdecode, hexec⟩

end Sys2Proof.Claims
end

section
/-! PROOFS. Loads and register transfers (41_load_store_transfer.md, R351). -/

namespace Sys2Proof.Machine

open Sys2Proof.Claims

/-- `SetNZ(v)` (R9). -/
theorem Flags.setNZ_eq (f : Flags) (v : Byte) : f.setNZ v = nz f v := rfl

theorem State.loadA_eq (s : State) (v : Byte) : s.loadA v = { s with a := v, p := nz s.p v } := by
  rw [State.loadA, Flags.setNZ_eq]; rfl

theorem State.loadX_eq (s : State) (v : Byte) : s.loadX v = { s with x := v, p := nz s.p v } := by
  rw [State.loadX, Flags.setNZ_eq]; rfl

theorem State.loadY_eq (s : State) (v : Byte) : s.loadY v = { s with y := v, p := nz s.p v } := by
  rw [State.loadY, Flags.setNZ_eq]; rfl

theorem State.loadAX_eq (s : State) (v : Byte) : s.loadAX v = { s with a := v, x := v, p := nz s.p v } := by
  rw [State.loadAX, Flags.setNZ_eq]; rfl

theorem lda_reads : Reads ldaLine (fun _ => .lda) (fun v s => { s with a := v, p := nz s.p v }) :=
  reads_of_rows (m := .lda) (by decide +kernel) (fun _ o => congrArg Instr.lda (dataOperand_bytes o))
    (fun _ _ _ => congrArg Host.Outcome.next (State.loadA_eq _ _))

theorem ldx_reads : Reads ldxLine (fun _ => .ldx) (fun v s => { s with x := v, p := nz s.p v }) :=
  reads_of_rows (m := .ldx) (by decide +kernel) (fun _ o => congrArg Instr.ldx (dataOperand_bytes o))
    (fun _ _ _ => congrArg Host.Outcome.next (State.loadX_eq _ _))

theorem ldy_reads : Reads ldyLine (fun _ => .ldy) (fun v s => { s with y := v, p := nz s.p v }) :=
  reads_of_rows (m := .ldy) (by decide +kernel) (fun _ o => congrArg Instr.ldy (dataOperand_bytes o))
    (fun _ _ _ => congrArg Host.Outcome.next (State.loadY_eq _ _))

theorem lax_reads : Reads laxLine (fun _ => .lax) (fun v s => { s with a := v, x := v, p := nz s.p v }) :=
  reads_of_rows (m := .lax) (by decide +kernel) (fun _ o => congrArg Instr.lax (dataOperand_bytes o))
    (fun _ _ _ => congrArg Host.Outcome.next (State.loadAX_eq _ _))

/-- Settles O29: each line holds rows of the table, and each meaning is a register load of the row's operand. -/
theorem loadsSetRegisterAndFlags : Obligations.LoadsSetRegisterAndFlags :=
  ⟨lda_reads, ldx_reads, ldy_reads, lax_reads⟩

/-- Settles O28: each meaning is a register load from the source, TXS's a bare copy to SP, with two cycles charged. -/
theorem transfersCopyRegisters : Obligations.TransfersCopyRegisters := by
  have htax := implied_of_charged (op := 0xAA) (i := .tax) (m := .tax) (eff := fun s => s.loadX s.a) rfl fun _ => rfl
  have htay := implied_of_charged (op := 0xA8) (i := .tay) (m := .tay) (eff := fun s => s.loadY s.a) rfl fun _ => rfl
  have htxa := implied_of_charged (op := 0x8A) (i := .txa) (m := .txa) (eff := fun s => s.loadA s.x) rfl fun _ => rfl
  have htya := implied_of_charged (op := 0x98) (i := .tya) (m := .tya) (eff := fun s => s.loadA s.y) rfl fun _ => rfl
  have htsx := implied_of_charged (op := 0xBA) (i := .tsx) (m := .tsx) (eff := fun s => s.loadX s.sp) rfl fun _ => rfl
  have htxs := implied_of_charged (op := 0x9A) (i := .txs) (m := .txs) (eff := fun s => s.setSp s.x) rfl fun _ => rfl
  simp only [State.loadA_eq, State.loadX_eq, State.loadY_eq] at htax htay htxa htya htsx
  exact ⟨htax, htay, htxa, htya, htsx, htxs⟩

end Sys2Proof.Machine
end

section
/-! PROOFS. What makes a mnemonic a read-modify-write instruction (R162, R163, R198). -/

namespace Sys2Proof.Claims

open Sys2Proof.Machine

/-- Writing back at the place an operand resolves to is the statements' one write, at the effective address (R163). -/
theorem writeLoc_resolve (o : Operand) (b : Byte) (s t : State) :
    writeLoc (resolve o s).1 b t = writeOf o (eaOf o s) b t := by
  cases o with
  | izx _ | izy _ => simp only [resolve, read16Page_zeroPage]; rfl
  | acc | imm _ | zp _ | zpx _ | zpy _ | abs _ | abx _ | aby _ => rfl

/-- One read and one write with the row charged: the old value, and the state after both (R85, R198). -/
theorem modifyOperand_eq (m : Mnemonic) (o : Operand) (f : Byte → Byte) (s : State) :
    modifyOperand m o f s = ((readOf o s).1,
      { writeOf o (eaOf o s) (f (readOf o s).1) (readOf o s).2 with
        cycles := (writeOf o (eaOf o s) (f (readOf o s).1) (readOf o s).2).cycles +
          (baseCycles m o.mode + pagePenalty m o.mode (crosses o s)) }) := by
  simp only [modifyOperand, resolve_snd, readLoc_resolve, crossed_resolve, writeLoc_resolve]
  rfl

/-- What makes a mnemonic a read-modify-write instruction: its line holds rows of the table, its rows assemble to the
term, and the term's meaning is the effect applied to the modified operand. -/
theorem modifies_of_rows {line : List Enc} {m : Mnemonic} {mk : Operand → Instr} {f : Bool → Byte → Byte}
    {eff : Byte → State → State} (hrows : ∀ e ∈ line, e.isRowOf m = true)
    (hterm : ∀ op o, assemble m o.mode op (o.bytes.getD 0 0) (o.bytes.getD 1 0) = mk o)
    (hexec : ∀ o s,
      exec (mk o) s = .next (eff (modifyOperand m o (f s.p.c) s).1 (modifyOperand m o (f s.p.c) s).2)) :
    Modifies line mk f eff := by
  intro e he o s ho
  have hrow := hrows e he
  constructor
  · rw [Enc.decode_of_isRowOf hrow ho, hterm]
  · rw [hexec, modifyOperand_eq, Enc.cost_of_isRowOf hrow ho]

end Sys2Proof.Claims
end

section
/-! PROOFS. The adder and the comparison as integer arithmetic (R250, R251, R253). -/

namespace Sys2Proof.Machine

open Sys2Proof.Claims

/-- The adder's V bit, both operands of one sign and the sum of the other: the signed sum does not fit a byte (R250). -/
theorem addC_overflow (a m : Byte) (c : Bool) :
    (addC a m c).2.2 =
      decide (a.toInt + m.toInt + (c.toNat : Int) < -128 ∨ 127 < a.toInt + m.toInt + (c.toNat : Int)) := by
  have ha := a.isLt
  have hm := m.isLt
  have hc := c.toNat_le
  simp only [addC, BitVec.msb_and, BitVec.msb_xor]
  rw [Bool.eq_iff_iff]
  simp only [BitVec.msb_eq_decide, BitVec.toInt_eq_toNat_cond, BitVec.toNat_ofNat, Bool.and_eq_true, Bool.xor_iff_ne,
    ne_eq, decide_eq_decide, decide_eq_true_eq]
  split <;> split <;> omega

/-- `(r, c, v) <- AddC(A, m, C); A <- r` with its flags is the sum of integers (R250, R252). -/
theorem State.addToA_carry_eq (s : State) (m : Byte) : s.addToA m s.p.c = addTo s m := by
  simp only [State.addToA, Flags.ofAdd, addC_overflow]
  rfl

theorem complement_toNat (m : Byte) : (m ^^^ 0xFF).toNat = 255 - m.toNat :=
  (congrArg BitVec.toNat BitVec.xor_allOnes).trans BitVec.toNat_not

theorem complement_toInt (m : Byte) : (m ^^^ 0xFF).toInt = -1 - m.toInt := by
  have := m.isLt
  simp only [BitVec.toInt_eq_toNat_cond, complement_toNat]
  split <;> split <;> omega

/-- Adding the one's complement is subtracting with borrow: the natural sum is the difference plus 256, and the signed
sum is the signed difference (R253). -/
theorem addTo_complement (s : State) (m : Byte) : addTo s (m ^^^ 0xFF) = subFrom s m := by
  have hm := m.isLt
  have hcarry : (s.p.c.toNat : Int) = 1 - (if s.p.c then 0 else 1) := by cases s.p.c <;> rfl
  have hsum : ((s.a.toNat + (m ^^^ 0xFF).toNat + s.p.c.toNat : Nat) : Int) =
      (s.a.toNat : Int) - m.toNat - (if s.p.c then 0 else 1) + 256 := by
    rw [complement_toNat]; omega
  have hbyte : BitVec.ofNat 8 (s.a.toNat + (m ^^^ 0xFF).toNat + s.p.c.toNat) =
      BitVec.ofInt 8 ((s.a.toNat : Int) - m.toNat - (if s.p.c then 0 else 1)) := by
    apply BitVec.eq_of_toNat_eq
    rw [BitVec.toNat_ofNat, BitVec.toNat_ofInt]
    omega
  have hborrow : 255 < s.a.toNat + (m ^^^ 0xFF).toNat + s.p.c.toNat ↔
      0 ≤ (s.a.toNat : Int) - m.toNat - (if s.p.c then 0 else 1) := by omega
  have hsigned : s.a.toInt + (m ^^^ 0xFF).toInt + (s.p.c.toNat : Int) =
      s.a.toInt - m.toInt - (if s.p.c then 0 else 1) := by
    rw [complement_toInt]; omega
  simp only [addTo, subFrom, hbyte, hborrow, hsigned]

/-- SBC's addition to A is the difference of integers (R253). -/
theorem State.addToA_complement_eq (s : State) (m : Byte) : s.addToA (m ^^^ 0xFF) s.p.c = subFrom s m := by
  rw [State.addToA_carry_eq, addTo_complement]

/-- `Compare(reg, m)` (R251). -/
theorem Flags.compare_eq (f : Flags) (reg m : Byte) : f.compare reg m = compared f reg m := rfl

/-- Loading an operand changes no register (R80). -/
theorem loadOperand_registers (m : Mnemonic) (o : Operand) (s : State) :
    (loadOperand m o s).2.a = s.a ∧ (loadOperand m o s).2.x = s.x ∧ (loadOperand m o s).2.y = s.y := by
  have h := readLoc_frame (resolve o s).1 (resolve o s).2
  rw [resolve_snd] at h
  simp only [loadOperand, resolve_snd]
  exact ⟨h.a, h.x, h.y⟩

/-- A byte increment as R261 writes it. -/
theorem byte_add_one (v : Byte) : v + 1 = BitVec.ofNat 8 ((v.toNat + 1) % 256) := by bv_omega

/-- A byte decrement: modulo 256 it adds 255 (R262). -/
theorem byte_sub_one (v : Byte) : v - 1 = BitVec.ofNat 8 ((v.toNat + 255) % 256) := by bv_omega

end Sys2Proof.Machine
end

section
/-! PROOFS. Arithmetic, logic, compare, increment and decrement (42_arith_logic.md, R353). -/

namespace Sys2Proof.Machine

open Sys2Proof.Claims

theorem adc_reads : Reads adcLine (fun _ => .adc) (fun m s => addTo s m) :=
  reads_of_rows (m := .adc) (by decide +kernel) (fun _ o => congrArg Instr.adc (dataOperand_bytes o))
    (fun _ _ _ => congrArg Host.Outcome.next (State.addToA_carry_eq _ _))

theorem sbc_reads : Reads sbcLine (fun _ => .sbc) (fun m s => subFrom s m) :=
  reads_of_rows (m := .sbc) (by decide +kernel) (fun _ o => congrArg Instr.sbc (dataOperand_bytes o))
    (fun _ _ _ => congrArg Host.Outcome.next (State.addToA_complement_eq _ _))

theorem sbcU_immediate : Immediate 0xEB .sbcU (fun m s => { subFrom s m with cycles := s.cycles + 2 }) :=
  fun m => ⟨rfl, fun s => congrArg Host.Outcome.next (State.addToA_complement_eq (s.charge 2) m)⟩

/-- Settles O31: the operand added to A, or its one's complement, with the carry as it stands. -/
theorem addAndSubtract : Obligations.AddAndSubtract :=
  ⟨adc_reads, sbc_reads, sbcU_immediate⟩

theorem and_reads : Reads andLine (fun _ => .and) (fun m s => { s with a := s.a &&& m, p := nz s.p (s.a &&& m) }) :=
  reads_of_rows (m := .and) (by decide +kernel) (fun _ o => congrArg Instr.and (dataOperand_bytes o))
    (fun _ _ _ => congrArg Host.Outcome.next (State.loadA_eq _ _))

theorem ora_reads : Reads oraLine (fun _ => .ora) (fun m s => { s with a := s.a ||| m, p := nz s.p (s.a ||| m) }) :=
  reads_of_rows (m := .ora) (by decide +kernel) (fun _ o => congrArg Instr.ora (dataOperand_bytes o))
    (fun _ _ _ => congrArg Host.Outcome.next (State.loadA_eq _ _))

theorem eor_reads : Reads eorLine (fun _ => .eor) (fun m s => { s with a := s.a ^^^ m, p := nz s.p (s.a ^^^ m) }) :=
  reads_of_rows (m := .eor) (by decide +kernel) (fun _ o => congrArg Instr.eor (dataOperand_bytes o))
    (fun _ _ _ => congrArg Host.Outcome.next (State.loadA_eq _ _))

/-- The flags of BIT (R257). -/
theorem Flags.bitTest_eq (f : Flags) (a m : Byte) :
    f.bitTest a m = { f with z := decide (a &&& m = 0), n := m.getLsbD 7, v := m.getLsbD 6 } := rfl

theorem bit_reads : Reads bitLine (fun _ => .bit)
    (fun m s => { s with p := { s.p with z := decide (s.a &&& m = 0), n := m.getLsbD 7, v := m.getLsbD 6 } }) :=
  reads_of_rows (m := .bit) (by decide +kernel) (fun _ o => congrArg Instr.bit (dataOperand_bytes o))
    (fun _ _ _ => congrArg (Host.Outcome.next <| State.setP _ ·) (Flags.bitTest_eq _ _ _))

/-- Settles O32: AND, ORA and EOR load A with the combined byte; BIT writes three flags alone. -/
theorem logicAndBit : Obligations.LogicAndBit :=
  ⟨and_reads, ora_reads, eor_reads, bit_reads⟩

/-- A comparing instruction writes the flags of the loaded operand's comparison and nothing else (R251). -/
theorem compareWith_eq (m : Mnemonic) (reg : Byte) (o : Operand) (s : State) :
    compareWith m reg o s =
      { (loadOperand m o s).2 with p := compared (loadOperand m o s).2.p reg (loadOperand m o s).1 } := by
  rw [compareWith, Flags.compare_eq]; rfl

theorem cmp_reads : Reads cmpLine (fun _ => .cmp) (fun m s => { s with p := compared s.p s.a m }) :=
  reads_of_rows (m := .cmp) (by decide +kernel) (fun _ o => congrArg Instr.cmp (dataOperand_bytes o)) fun _ o s => by
    obtain ⟨ha, -, -⟩ := loadOperand_registers .cmp o s
    simp only [exec, execCmp, compareWith_eq, ha]

theorem cpx_reads : Reads cpxLine (fun _ => .cpx) (fun m s => { s with p := compared s.p s.x m }) :=
  reads_of_rows (m := .cpx) (by decide +kernel) (fun _ o => congrArg Instr.cpx (dataOperand_bytes o)) fun _ o s => by
    obtain ⟨-, hx, -⟩ := loadOperand_registers .cpx o s
    simp only [exec, execCpx, compareWith_eq, hx]

theorem cpy_reads : Reads cpyLine (fun _ => .cpy) (fun m s => { s with p := compared s.p s.y m }) :=
  reads_of_rows (m := .cpy) (by decide +kernel) (fun _ o => congrArg Instr.cpy (dataOperand_bytes o)) fun _ o s => by
    obtain ⟨-, -, hy⟩ := loadOperand_registers .cpy o s
    simp only [exec, execCpy, compareWith_eq, hy]

/-- Settles O33: the register survives the operand's read, so it is compared as it stood. -/
theorem comparesSetFlagsOnly : Obligations.ComparesSetFlagsOnly :=
  ⟨cmp_reads, cpx_reads, cpy_reads⟩

/-- A memory byte replaced by f of it, with its flags (R261, R262). -/
theorem modifyNZ_eq (m : Mnemonic) (f : Byte → Byte) (o : Operand) (s : State) :
    modifyNZ m f o s =
      { (modifyOperand m o f s).2 with p := nz (modifyOperand m o f s).2.p (f (modifyOperand m o f s).1) } := by
  rw [modifyNZ, Flags.setNZ_eq]; rfl

theorem inc_modifies : Modifies incLine .inc (fun _ v => v + 1) (fun v s => { s with p := nz s.p (v + 1) }) :=
  modifies_of_rows (m := .inc) (by decide +kernel) (fun _ o => congrArg Instr.inc (dataOperand_bytes o))
    (fun _ _ => congrArg Host.Outcome.next (modifyNZ_eq _ _ _ _))

theorem dec_modifies : Modifies decLine .dec (fun _ v => v - 1) (fun v s => { s with p := nz s.p (v - 1) }) :=
  modifies_of_rows (m := .dec) (by decide +kernel) (fun _ o => congrArg Instr.dec (dataOperand_bytes o))
    (fun _ _ => congrArg Host.Outcome.next (modifyNZ_eq _ _ _ _))

/-- Settles O34: INC and DEC replace the operand, the other four load a register with itself plus or minus 1. -/
theorem incrementAndDecrement : Obligations.IncrementAndDecrement := by
  have hinc := inc_modifies
  have hdec := dec_modifies
  simp only [byte_add_one] at hinc
  simp only [byte_sub_one] at hdec
  have hinx := implied_of_charged (op := 0xE8) (i := .inx) (m := .inx) (eff := fun s => s.loadX (s.x + 1)) rfl
    fun _ => rfl
  have hiny := implied_of_charged (op := 0xC8) (i := .iny) (m := .iny) (eff := fun s => s.loadY (s.y + 1)) rfl
    fun _ => rfl
  have hdex := implied_of_charged (op := 0xCA) (i := .dex) (m := .dex) (eff := fun s => s.loadX (s.x - 1)) rfl
    fun _ => rfl
  have hdey := implied_of_charged (op := 0x88) (i := .dey) (m := .dey) (eff := fun s => s.loadY (s.y - 1)) rfl
    fun _ => rfl
  simp only [State.loadX_eq, State.loadY_eq] at hinx hiny hdex hdey
  exact ⟨hinc, hdec, hinx, hiny, hdex, hdey⟩

end Sys2Proof.Machine
end

section
/-! PROOFS. The shift primitives as numbers (R290), and what makes a mnemonic a shift or a rotate (R291 to R295). -/

namespace Sys2Proof.Machine

open Sys2Proof.Claims

/-- A flag as a bit, as a number (R290). -/
theorem bit_eq_ofNat (c : Bool) : bit c = BitVec.ofNat 8 c.toNat := by
  cases c <;> rfl

/-- A left shift of a byte doubles it (R290). -/
theorem shiftLeft_one_eq (v : Byte) : v <<< 1 = BitVec.ofNat 8 (2 * v.toNat) :=
  congrArg (BitVec.ofNat 8) ((Nat.shiftLeft_eq _ 1).trans (Nat.mul_comm _ _))

/-- A right shift of a byte halves it (R290). -/
theorem ushiftRight_one_eq (v : Byte) : v >>> 1 = BitVec.ofNat 8 (v.toNat / 2) := by
  rw [← Nat.shiftRight_one, ← BitVec.toNat_ushiftRight, BitVec.ofNat_toNat, BitVec.setWidth_eq]

/-- `Shl(v)` (R290). -/
theorem shl_eq (v : Byte) : shl v = (shl1 v, v.getLsbD 7) := by
  rw [shl, shl1, shiftLeft_one_eq, BitVec.msb_eq_getLsbD_last]

/-- `Shr(v)` (R290). -/
theorem shr_eq (v : Byte) : shr v = (shr1 v, v.getLsbD 0) := by
  rw [shr, shr1, ushiftRight_one_eq]

/-- `Rol(v, c)`: the carry enters at bit 0, which doubling leaves clear, so OR adds it (R290). -/
theorem rol_eq (v : Byte) (c : Bool) : rol v c = (rol1 c v, v.getLsbD 7) := by
  have hadd : 2 * v.toNat ||| c.toNat = 2 * v.toNat + c.toNat :=
    (Nat.two_pow_add_eq_or_of_lt (i := 1) c.toNat_lt v.toNat).symm
  rw [rol, rol1, ← hadd, BitVec.ofNat_or, shiftLeft_one_eq, bit_eq_ofNat, BitVec.msb_eq_getLsbD_last]

/-- `Ror(v, c)`: the carry enters at bit 7, which halving leaves clear, so OR adds it (R290). -/
theorem ror_eq (v : Byte) (c : Bool) : ror v c = (ror1 c v, v.getLsbD 0) := by
  have hhalf : v.toNat / 2 < 2 ^ 7 := by have := v.isLt; omega
  have hadd : v.toNat / 2 ||| 128 * c.toNat = v.toNat / 2 + 128 * c.toNat := by
    rw [Nat.or_comm, Nat.add_comm]
    exact (Nat.two_pow_add_eq_or_of_lt hhalf c.toNat).symm
  have hcarry : bit c <<< 7 = BitVec.ofNat 8 (128 * c.toNat) := by cases c <;> rfl
  rw [ror, ror1, ← hadd, BitVec.ofNat_or, ushiftRight_one_eq, hcarry]

/-- Writing back changes no flag (R163). -/
theorem writeLoc_p (loc : Loc) (b : Byte) (s : State) : (writeLoc loc b s).p = s.p := by
  cases loc with
  | acc | imm _ => rfl
  | mem ea _ => exact (memWrite_frame ea b s).p

/-- Modifying an operand changes no flag: its read and its write keep them (R80, R163). -/
theorem modifyOperand_p (m : Mnemonic) (o : Operand) (f : Byte → Byte) (s : State) :
    (modifyOperand m o f s).2.p = s.p := by
  have hread := (readLoc_frame (resolve o s).1 (resolve o s).2).p
  rw [resolve_snd] at hread
  simp only [modifyOperand, resolve_snd]
  exact (writeLoc_p _ _ _).trans hread

/-- The flags of a shift (R291 to R294). -/
theorem Flags.ofShift_eq (f : Flags) (r : Byte × Bool) : f.ofShift r = { nz f r.1 with c := r.2 } := by
  rw [Flags.ofShift, Flags.setNZ_eq]

/-- A shift by f is one modification of the operand by f's result, then the flags of f (R291 to R294). -/
theorem shiftOperand_eq (m : Mnemonic) (f : Byte → Byte × Bool) (o : Operand) (s : State) :
    shiftOperand m f o s =
      { (modifyOperand m o (fun v => (f v).1) s).2 with
        p := { nz s.p (f (modifyOperand m o (fun v => (f v).1) s).1).1 with
          c := (f (modifyOperand m o (fun v => (f v).1) s).1).2 } } := by
  rw [shiftOperand, Flags.ofShift_eq, modifyOperand_p]; rfl

/-- What makes a mnemonic a shift or a rotate: its line holds rows of the table, its rows assemble to the term, and the
term's meaning shifts the operand with the old carry, to the byte res and with the bit out shifted out. -/
theorem modifies_of_shift {line : List Enc} {m : Mnemonic} {mk : Operand → Instr} {f : Byte → Bool → Byte × Bool}
    {res : Bool → Byte → Byte} {out : Byte → Bool} (hrows : ∀ e ∈ line, e.isRowOf m = true)
    (hterm : ∀ op o, assemble m o.mode op (o.bytes.getD 0 0) (o.bytes.getD 1 0) = mk o)
    (hexec : ∀ o s, exec (mk o) s = .next (shiftOperand m (f · s.p.c) o s))
    (hf : ∀ v c, f v c = (res c v, out v)) :
    Modifies line mk res (fun v s => { s with p := { nz s.p (res s.p.c v) with c := out v } }) :=
  modifies_of_rows hrows hterm fun o s => by
    simp only [hexec, shiftOperand_eq, hf, modifyOperand_p]

end Sys2Proof.Machine
end

section
/-! PROOFS. Shifts and rotates (43_shift_rotate.md). -/

namespace Sys2Proof.Machine

open Sys2Proof.Claims

theorem asl_modifies : Modifies aslLine .asl (fun _ v => shl1 v)
    (fun v s => { s with p := { nz s.p (shl1 v) with c := v.getLsbD 7 } }) :=
  modifies_of_shift (m := .asl) (f := fun v _ => shl v) (by decide +kernel)
    (fun _ o => congrArg Instr.asl (dataOperand_bytes o)) (fun _ _ => rfl) (fun v _ => shl_eq v)

theorem lsr_modifies : Modifies lsrLine .lsr (fun _ v => shr1 v)
    (fun v s => { s with p := { nz s.p (shr1 v) with c := v.getLsbD 0 } }) :=
  modifies_of_shift (m := .lsr) (f := fun v _ => shr v) (by decide +kernel)
    (fun _ o => congrArg Instr.lsr (dataOperand_bytes o)) (fun _ _ => rfl) (fun v _ => shr_eq v)

theorem rol_modifies : Modifies rolLine .rol rol1
    (fun v s => { s with p := { nz s.p (rol1 s.p.c v) with c := v.getLsbD 7 } }) :=
  modifies_of_shift (m := .rol) (by decide +kernel) (fun _ o => congrArg Instr.rol (dataOperand_bytes o))
    (fun _ _ => rfl) rol_eq

theorem ror_modifies : Modifies rorLine .ror ror1
    (fun v s => { s with p := { nz s.p (ror1 s.p.c v) with c := v.getLsbD 0 } }) :=
  modifies_of_shift (m := .ror) (by decide +kernel) (fun _ o => congrArg Instr.ror (dataOperand_bytes o))
    (fun _ _ => rfl) ror_eq

/-- Settles O35: each line holds rows of the table, and each meaning is a shift of the row's operand, which keeps the
flags until it writes its own, so the rotates take the old carry. -/
theorem shiftsAndRotates : Obligations.ShiftsAndRotates :=
  ⟨asl_modifies, lsr_modifies, rol_modifies, ror_modifies⟩

end Sys2Proof.Machine
end

section
/-! PROOFS. Words as pairs of bytes: the pointer that stays in its page (R83), and a word in the decoder's input. -/

namespace Sys2Proof

theorem and_w16 (h l h' l' : Byte) : w16 h l &&& w16 h' l' = w16 (h &&& h') (l &&& l') := BitVec.and_append

theorem or_w16 (h l h' l' : Byte) : w16 h l ||| w16 h' l' = w16 (h ||| h') (l ||| l') := BitVec.or_append

/-- The low byte of an incremented word does not depend on its high byte. -/
theorem lo_add_one (a : Addr) : lo (a + 1) = lo a + 1 := BitVec.setWidth_add a 1 (by decide)

/-- An opcode byte with the two bytes of a word decodes to the term the row assembles from the word. -/
theorem decode_word {op : Byte} {mk : Addr → Instr} (hmode : (descriptor op).mode.operandBytes = 2)
    (hterm : ∀ l h, instrOf op l h = mk (w16 h l)) (a : Addr) : decode [op, lo a, hi a] = .ok (mk a, []) := by
  rw [decode_two hmode, hterm, w16_hi_lo]

end Sys2Proof

namespace Sys2Proof.Machine

/-- The address after a pointer that stays in its page: the same high byte, the low byte modulo 256 (R83). -/
theorem nextInPage_eq (a : Addr) : nextInPage a = w16 (hi a) (lo a + 1) := by
  have hones (b : Byte) : b &&& 0xFF = b := BitVec.and_allOnes
  have hzeros (b : Byte) : b &&& 0x00 = 0x00 := BitVec.and_zero
  calc nextInPage a
      = (w16 (hi a) (lo a) &&& w16 0xFF 0x00) ||| (w16 (hi (a + 1)) (lo (a + 1)) &&& w16 0x00 0xFF) := by
        rw [w16_hi_lo, w16_hi_lo]; rfl
    _ = w16 (hi a) (lo (a + 1)) := by
        rw [and_w16, and_w16, or_w16, hones, hones, hzeros, hzeros]
        exact congrArg₂ w16 BitVec.or_zero BitVec.zero_or
    _ = w16 (hi a) (lo a + 1) := by rw [lo_add_one]

end Sys2Proof.Machine
end

section
/-! PROOFS. Jumps, subroutines and branches (45_control_flow.md). -/

namespace Sys2Proof.Machine

open Sys2Proof.Claims

/-- JMP IND: two reads, the second in the page of the first (R152, R310). -/
theorem exec_jmp_ind (ptr : Addr) (s : State) :
    exec (.jmp (.ind ptr)) s =
      .next { (memRead (w16 (hi ptr) (lo ptr + 1)) (memRead ptr s).2).2 with
        pc := w16 (memRead (w16 (hi ptr) (lo ptr + 1)) (memRead ptr s).2).1 (memRead ptr s).1
        cycles := s.cycles + 5 } := by
  rw [← (read16Page_frame ptr s).cycles, ← nextInPage_eq]
  rfl

/-- JSR (R311). -/
theorem exec_jsr (a : Addr) (s : State) :
    exec (.jsr a) s = .next { s with
      ram := (s.ram.write (stackCell s.sp) (hi (s.pc - 1))).write (stackCell (s.sp - 1)) (lo (s.pc - 1))
      sp := s.sp - 2, pc := a, cycles := s.cycles + 6 } := by
  simp only [exec, execJsr, push16_eq]
  rfl

/-- RTS (R312). -/
theorem exec_rts (s : State) :
    exec .rts s = .next { s with
      pc := w16 (s.ram.read (stackCell (s.sp + 2))) (s.ram.read (stackCell (s.sp + 1))) + 1
      sp := s.sp + 2, cycles := s.cycles + 6 } := by
  simp only [exec, execRts, pull16_eq]
  rfl

/-- Settles O37: a pointer's second byte lies in its own page, and a word pushed or pulled in closed form. -/
theorem jumpsAndReturns : Obligations.JumpsAndReturns :=
  ⟨fun a _ => ⟨decode_word (mk := fun a => .jmp (.abs a)) rfl (fun _ _ => rfl) a, rfl⟩,
    fun ptr s => ⟨decode_word (mk := fun a => .jmp (.ind a)) rfl (fun _ _ => rfl) ptr, exec_jmp_ind ptr s⟩,
    fun a s => ⟨decode_word rfl (fun _ _ => rfl) a, exec_jsr a s⟩,
    rfl, exec_rts⟩

/-- The target of a branch as an integer sum (R155). -/
theorem branchTarget_eq (disp : Byte) (pc : Addr) :
    branchTarget disp pc = BitVec.ofInt 16 ((pc.toNat : Int) + disp.toInt) := by
  rw [BitVec.ofInt_add, BitVec.ofInt_natCast, BitVec.ofNat_toNat, BitVec.setWidth_eq]
  rfl

/-- `Branch(cond)` on a row of two cycles (R200, R315). -/
theorem branch_eq {m : Mnemonic} (hcost : baseCycles m .rel = 2) (cond : Bool) (disp : Byte) (s : State) :
    branch m cond disp s = branched cond disp s := by
  simp only [branch, branched, branchTarget_eq, chargeBase, hcost, bne_iff_ne, ne_eq, ite_not]
  cases cond with
  | false => rfl
  | true =>
    simp only [if_true]
    split <;> rfl

/-- What makes a mnemonic a branch on a flag: its row costs two cycles, its opcode decodes to the term, and the term's
meaning is `Branch` of the flag. -/
theorem immediate_of_branch {op : Byte} {m : Mnemonic} {mk : Byte → Instr} {flag : State → Bool}
    (hcost : baseCycles m .rel = 2) (hdecode : ∀ disp, decode [op, disp] = .ok (mk disp, []))
    (hexec : ∀ disp s, exec (mk disp) s = .next (branch m (flag s) disp s)) :
    Immediate op mk (fun disp s => branched (flag s) disp s) :=
  fun disp => ⟨hdecode disp, fun s => by rw [hexec, branch_eq hcost]⟩

/-- Settles O40: each of the eight is `Branch` of its flag or of the flag's negation. -/
theorem branchesTestOneFlag : Obligations.BranchesTestOneFlag := by
  simp only [Obligations.BranchesTestOneFlag, beq_false, beq_true]
  exact ⟨immediate_of_branch (m := .bpl) rfl (fun _ => rfl) fun _ _ => rfl,
    immediate_of_branch (m := .bmi) rfl (fun _ => rfl) fun _ _ => rfl,
    immediate_of_branch (m := .bvc) rfl (fun _ => rfl) fun _ _ => rfl,
    immediate_of_branch (m := .bvs) rfl (fun _ => rfl) fun _ _ => rfl,
    immediate_of_branch (m := .bcc) rfl (fun _ => rfl) fun _ _ => rfl,
    immediate_of_branch (m := .bcs) rfl (fun _ => rfl) fun _ _ => rfl,
    immediate_of_branch (m := .bne) rfl (fun _ => rfl) fun _ _ => rfl,
    immediate_of_branch (m := .beq) rfl (fun _ => rfl) fun _ _ => rfl⟩

end Sys2Proof.Machine
end

section
/-! PROOFS. Flag instructions and NOP (46_flags_misc.md). -/

namespace Sys2Proof.Machine

open Sys2Proof.Claims

/-- What makes a mnemonic a flag instruction: its row costs two cycles, its opcode decodes to the term, and the term's
meaning replaces P by g of it. -/
theorem implied_of_setP {op : Byte} {i : Instr} {m : Mnemonic} (g : Flags → Flags) (hcost : baseCycles m .imp = 2)
    (hdecode : decode [op] = .ok (i, [])) (hexec : ∀ s, exec i s = .next (chargeBase m .imp (s.setP (g s.p)))) :
    Implied op i (fun s => { s with p := g s.p, cycles := s.cycles + 2 }) :=
  hcost ▸ implied_of_charged hdecode hexec

/-- NOP charges its row's two cycles and does nothing else (R347). -/
theorem nop_implied : Implied 0xEA .nop (fun s => { s with cycles := s.cycles + 2 }) :=
  implied_of_charged (m := .nop) (eff := id) rfl fun _ => rfl

/-- Settles O41: each of the seven replaces P by itself with one flag written, and NOP's meaning is its cost alone. -/
theorem flagInstructions : Obligations.FlagInstructions :=
  ⟨implied_of_setP (m := .clc) ({ · with c := false }) rfl rfl fun _ => rfl,
    implied_of_setP (m := .sec) ({ · with c := true }) rfl rfl fun _ => rfl,
    implied_of_setP (m := .cli) ({ · with i := false }) rfl rfl fun _ => rfl,
    implied_of_setP (m := .sei) ({ · with i := true }) rfl rfl fun _ => rfl,
    implied_of_setP (m := .cld) ({ · with d := false }) rfl rfl fun _ => rfl,
    implied_of_setP (m := .sed) ({ · with d := true }) rfl rfl fun _ => rfl,
    implied_of_setP (m := .clv) ({ · with v := false }) rfl rfl fun _ => rfl,
    nop_implied⟩

end Sys2Proof.Machine
end

section
/-! PROOFS. Instructions that modify memory, then combine it with A (47_undocumented.md section 1). -/

namespace Sys2Proof.Machine

open Sys2Proof.Claims

/-- What makes a mnemonic a shift of memory combined with A: its line holds rows of the table, its rows assemble to the
term, and the term's meaning is comb of the shifted byte and of the state whose carry is the bit shifted out, which is
also the carry comb takes in (R356 to R359). -/
theorem modifies_of_shiftMemory {line : List Enc} {m : Mnemonic} {mk : Operand → Instr}
    {f : Byte → Bool → Byte × Bool} {res : Bool → Byte → Byte} {out : Byte → Bool} {comb : Byte → State → State}
    (hrows : ∀ e ∈ line, e.isRowOf m = true)
    (hterm : ∀ op o, assemble m o.mode op (o.bytes.getD 0 0) (o.bytes.getD 1 0) = mk o)
    (hf : ∀ v c, f v c = (res c v, out v))
    (hexec : ∀ o s, exec (mk o) s =
      .next (comb (shiftMemory m (f · s.p.c) o s).1 (shiftMemory m (f · s.p.c) o s).2)) :
    Modifies line mk res (fun v s => comb (res s.p.c v) { s with p := { s.p with c := out v } }) :=
  modifies_of_rows hrows hterm fun o s => by
    simp only [hexec, shiftMemory, hf, modifyOperand_p, State.setP]

theorem slo_modifies : Modifies sloLine .slo (fun _ v => shl1 v)
    (fun v s => { s with a := s.a ||| shl1 v, p := { nz s.p (s.a ||| shl1 v) with c := v.getLsbD 7 } }) :=
  modifies_of_shiftMemory (m := .slo) (f := fun v _ => shl v)
    (comb := fun r s => { s with a := s.a ||| r, p := nz s.p (s.a ||| r) }) (by decide +kernel)
    (fun _ o => congrArg Instr.slo (dataOperand_bytes o)) (fun v _ => shl_eq v)
    (fun _ _ => congrArg Host.Outcome.next (State.loadA_eq _ _))

theorem rla_modifies : Modifies rlaLine .rla rol1
    (fun v s => { s with
      a := s.a &&& rol1 s.p.c v, p := { nz s.p (s.a &&& rol1 s.p.c v) with c := v.getLsbD 7 } }) :=
  modifies_of_shiftMemory (m := .rla) (comb := fun r s => { s with a := s.a &&& r, p := nz s.p (s.a &&& r) })
    (by decide +kernel) (fun _ o => congrArg Instr.rla (dataOperand_bytes o)) rol_eq
    (fun _ _ => congrArg Host.Outcome.next (State.loadA_eq _ _))

theorem sre_modifies : Modifies sreLine .sre (fun _ v => shr1 v)
    (fun v s => { s with a := s.a ^^^ shr1 v, p := { nz s.p (s.a ^^^ shr1 v) with c := v.getLsbD 0 } }) :=
  modifies_of_shiftMemory (m := .sre) (f := fun v _ => shr v)
    (comb := fun r s => { s with a := s.a ^^^ r, p := nz s.p (s.a ^^^ r) }) (by decide +kernel)
    (fun _ o => congrArg Instr.sre (dataOperand_bytes o)) (fun v _ => shr_eq v)
    (fun _ _ => congrArg Host.Outcome.next (State.loadA_eq _ _))

theorem rra_modifies : Modifies rraLine .rra ror1
    (fun v s => addTo { s with p := { s.p with c := v.getLsbD 0 } } (ror1 s.p.c v)) :=
  modifies_of_shiftMemory (m := .rra) (comb := fun r s => addTo s r) (by decide +kernel)
    (fun _ o => congrArg Instr.rra (dataOperand_bytes o)) ror_eq
    (fun _ _ => congrArg Host.Outcome.next (State.addToA_carry_eq _ _))

theorem dcp_modifies : Modifies dcpLine .dcp (fun _ v => v - 1)
    (fun v s => { s with p := compared s.p s.a (v - 1) }) :=
  modifies_of_rows (m := .dcp) (by decide +kernel) (fun _ o => congrArg Instr.dcp (dataOperand_bytes o))
    (fun _ _ => congrArg (Host.Outcome.next <| State.setP _ ·) (Flags.compare_eq _ _ _))

theorem isb_modifies : Modifies isbLine .isb (fun _ v => v + 1) (fun v s => subFrom s (v + 1)) :=
  modifies_of_rows (m := .isb) (by decide +kernel) (fun _ o => congrArg Instr.isb (dataOperand_bytes o))
    (fun _ _ => congrArg Host.Outcome.next (State.addToA_complement_eq _ _))

/-- Settles O42: each line holds rows of the table, and each meaning is one modification of the row's operand, then a
load, a sum, a difference or a comparison of A with the new byte. -/
theorem combinedModifyAndAccumulate : Obligations.CombinedModifyAndAccumulate :=
  ⟨slo_modifies, rla_modifies, sre_modifies, rra_modifies, dcp_modifies, isb_modifies⟩

end Sys2Proof.Machine
end

section
/-! PROOFS. Combinations with an immediate byte, and LAS (47_undocumented.md section 2). -/

namespace Sys2Proof.Machine

open Sys2Proof.Claims

/-- `Operand()` of an immediate byte with its row charged (R145, R198). -/
theorem loadOperand_imm (m : Mnemonic) (b : Byte) (s : State) :
    loadOperand m (.imm b) s = (b, s.charge (baseCycles m .imm + pagePenalty m .imm false)) := rfl

theorem anc_immediate {op : Byte} (hop : op ∈ [(0x0B : Byte), 0x2B]) :
    Immediate op (.anc op) (fun b s => { s with
      a := s.a &&& b, p := { nz s.p (s.a &&& b) with c := (s.a &&& b).getLsbD 7 }, cycles := s.cycles + 2 }) := by
  intro b
  have hdecode : decode [op, b] = .ok (.anc op b, []) := by
    rw [List.mem_pair] at hop
    obtain rfl | rfl := hop <;> rfl
  exact ⟨hdecode, fun s => by simp only [exec, execAnc, loadOperand_imm, State.loadA_eq]; rfl⟩

theorem alr_immediate :
    Immediate 0x4B .alr (fun b s => { s with
      a := shr1 (s.a &&& b), p := { nz s.p (shr1 (s.a &&& b)) with c := (s.a &&& b).getLsbD 0 }
      cycles := s.cycles + 2 }) :=
  fun _ => ⟨rfl, fun _ => by simp only [exec, execAlr, loadOperand_imm, shr_eq, Flags.ofShift_eq]; rfl⟩

theorem arr_immediate :
    Immediate 0x6B .arr (fun b s =>
      let r := ror1 s.p.c (s.a &&& b)
      { s with
        a := r, p := { nz s.p r with c := r.getLsbD 6, v := r.getLsbD 6 ^^ r.getLsbD 5 }, cycles := s.cycles + 2 }) :=
  fun _ => ⟨rfl, fun _ => by simp only [exec, execArr, loadOperand_imm, ror_eq, State.loadA_eq]; rfl⟩

theorem axs_immediate :
    Immediate 0xCB .axs (fun b s => { s with
      x := (s.a &&& s.x) - b, p := compared s.p (s.a &&& s.x) b, cycles := s.cycles + 2 }) :=
  fun _ => ⟨rfl, fun _ => by simp only [exec, execAxs, loadOperand_imm, Flags.compare_eq]; rfl⟩

/-- Reading an operand changes what a read may change and nothing else (R80). -/
theorem readOf_frame (o : Operand) (s : State) : ReadFrame s (readOf o s).2 := by
  rw [← readLoc_resolve]
  exact readLoc_frame _ s

/-- LAS: the read keeps SP and the flags, so they are the ones the instruction found (R365). -/
theorem exec_las (a : Addr) (s : State) :
    exec (.las a) s =
      .next { (readOf (.aby a) s).2 with
        a := (readOf (.aby a) s).1 &&& s.sp, x := (readOf (.aby a) s).1 &&& s.sp
        sp := (readOf (.aby a) s).1 &&& s.sp, p := nz s.p ((readOf (.aby a) s).1 &&& s.sp)
        cycles := s.cycles + 4 + (if crosses (.aby a) s then 1 else 0) } := by
  have hread := readOf_frame (.aby a) s
  rw [Nat.add_assoc]
  simp only [exec, execLas, loadOperand_eq, State.loadAX_eq, hread.sp, hread.p]
  rfl

/-- Settles O44: the immediate rows load their byte with no effect on the state, and LAS makes one read of memory. -/
theorem immediateCombinations : Obligations.ImmediateCombinations :=
  ⟨fun _ hop => anc_immediate hop, alr_immediate, arr_immediate, axs_immediate,
    fun a s => ⟨decode_word rfl (fun _ _ => rfl) a, exec_las a s⟩⟩

end Sys2Proof.Machine
end

section
/-! PROOFS. The PPU's registers written through the CPU's address space (60_exceptions.md). -/

namespace Sys2Proof.Machine

open Sys2Proof.Claims

/-- A write of any mirror of a PPU register is the write of that register (R73, R438). -/
theorem memWrite_of_ppuReg {a : Addr} (h : 0x2000 ≤ a.toNat) (h' : a.toNat < 0x4000) (d : Byte) (s : State) :
    memWrite a d s = ppuRegWrite (a.toNat % 8) d s := by
  simp only [memWrite, busDecode_ppu h h', writeTarget]

/-- PPUMASK (R440). -/
theorem ppuRegWrite_mask (d : Byte) (s : State) :
    ppuRegWrite 1 d s = { s with ppu := { s.ppu with mask := d } } := rfl

/-- OAMADDR (R442). -/
theorem ppuRegWrite_oamAddr (d : Byte) (s : State) :
    ppuRegWrite 3 d s = { s with ppu := { s.ppu with oamAddr := d } } := rfl

/-- OAMDATA (R443). -/
theorem ppuRegWrite_oamData (d : Byte) (s : State) :
    ppuRegWrite 4 d s = { s with ppu := { s.ppu with
      oam := s.ppu.oam.write s.ppu.oamAddr.toNat d, oamAddr := s.ppu.oamAddr + 1 } } := rfl

/-- Settles O47: the address decodes to its register number, and each of the three registers replaces its own fields. -/
theorem ppuRegisterWrites : Obligations.PpuRegisterWrites := by
  intro s a d hlo hhi
  rw [memWrite_of_ppuReg hlo hhi]
  refine ⟨fun hreg => ?mask, fun hreg => ?oamAddr, fun hreg => ?oamData⟩ <;> rw [hreg]
  case mask => exact ppuRegWrite_mask d s
  case oamAddr => exact ppuRegWrite_oamAddr d s
  case oamData => exact ppuRegWrite_oamData d s

end Sys2Proof.Machine
end

section
/-! PROOFS. The decoder against the encoder (30_encoding.md): the row an instruction's bytes index gives the instruction
back, and the instruction a row assembles has the row's bytes. -/

namespace Sys2Proof

/-- Every instruction encodes to an opcode of its own row and as many operand bytes as its mode fetches. -/
theorem encodingRow : ∀ i : Instr, Laws.EncodingRow.Statement i
  | .lda o => Laws.EncodingRow.lda o
  | .ldx o => Laws.EncodingRow.ldx o
  | .ldy o => Laws.EncodingRow.ldy o
  | .sta o => Laws.EncodingRow.sta o
  | .stx o => Laws.EncodingRow.stx o
  | .sty o => Laws.EncodingRow.sty o
  | .tax => Laws.EncodingRow.tax
  | .tay => Laws.EncodingRow.tay
  | .txa => Laws.EncodingRow.txa
  | .tya => Laws.EncodingRow.tya
  | .tsx => Laws.EncodingRow.tsx
  | .txs => Laws.EncodingRow.txs
  | .adc o => Laws.EncodingRow.adc o
  | .sbc o => Laws.EncodingRow.sbc o
  | .and o => Laws.EncodingRow.and o
  | .ora o => Laws.EncodingRow.ora o
  | .eor o => Laws.EncodingRow.eor o
  | .bit o => Laws.EncodingRow.bit o
  | .cmp o => Laws.EncodingRow.cmp o
  | .cpx o => Laws.EncodingRow.cpx o
  | .cpy o => Laws.EncodingRow.cpy o
  | .inc o => Laws.EncodingRow.inc o
  | .dec o => Laws.EncodingRow.dec o
  | .inx => Laws.EncodingRow.inx
  | .iny => Laws.EncodingRow.iny
  | .dex => Laws.EncodingRow.dex
  | .dey => Laws.EncodingRow.dey
  | .asl o => Laws.EncodingRow.asl o
  | .lsr o => Laws.EncodingRow.lsr o
  | .rol o => Laws.EncodingRow.rol o
  | .ror o => Laws.EncodingRow.ror o
  | .pha => Laws.EncodingRow.pha
  | .php => Laws.EncodingRow.php
  | .pla => Laws.EncodingRow.pla
  | .plp => Laws.EncodingRow.plp
  | .jmp t => Laws.EncodingRow.jmp t
  | .jsr a => Laws.EncodingRow.jsr a
  | .rts => Laws.EncodingRow.rts
  | .rti => Laws.EncodingRow.rti
  | .brk => Laws.EncodingRow.brk
  | .bpl b => Laws.EncodingRow.bpl b
  | .bmi b => Laws.EncodingRow.bmi b
  | .bvc b => Laws.EncodingRow.bvc b
  | .bvs b => Laws.EncodingRow.bvs b
  | .bcc b => Laws.EncodingRow.bcc b
  | .bcs b => Laws.EncodingRow.bcs b
  | .bne b => Laws.EncodingRow.bne b
  | .beq b => Laws.EncodingRow.beq b
  | .clc => Laws.EncodingRow.clc
  | .sec => Laws.EncodingRow.sec
  | .cli => Laws.EncodingRow.cli
  | .sei => Laws.EncodingRow.sei
  | .cld => Laws.EncodingRow.cld
  | .sed => Laws.EncodingRow.sed
  | .clv => Laws.EncodingRow.clv
  | .nop => Laws.EncodingRow.nop
  | .lax o => Laws.EncodingRow.lax o
  | .sax o => Laws.EncodingRow.sax o
  | .sbcU b => Laws.EncodingRow.sbcU b
  | .dcp o => Laws.EncodingRow.dcp o
  | .isb o => Laws.EncodingRow.isb o
  | .slo o => Laws.EncodingRow.slo o
  | .rla o => Laws.EncodingRow.rla o
  | .sre o => Laws.EncodingRow.sre o
  | .rra o => Laws.EncodingRow.rra o
  | .nopU op o => Laws.EncodingRow.nopU op o
  | .anc op b => Laws.EncodingRow.anc op b
  | .alr b => Laws.EncodingRow.alr b
  | .arr b => Laws.EncodingRow.arr b
  | .axs b => Laws.EncodingRow.axs b
  | .las a => Laws.EncodingRow.las a
  | .xaa b => Laws.EncodingRow.xaa b
  | .lxa b => Laws.EncodingRow.lxa b
  | .sha o => Laws.EncodingRow.sha o
  | .shx a => Laws.EncodingRow.shx a
  | .shy a => Laws.EncodingRow.shy a
  | .tas a => Laws.EncodingRow.tas a
  | .jam op => Laws.EncodingRow.jam op
  | .nmi => Laws.EncodingRow.nmi
  | .irq => Laws.EncodingRow.irq

/-- A word's bytes, taken as operand bytes, are the word. -/
theorem w16_wordBytes (a : Addr) : w16 ((wordBytes a).getD 1 0) ((wordBytes a).getD 0 0) = a := w16_hi_lo a

/-- The data operand of a mode that has none is absent, and the bytes of the others give them back (R360). -/
theorem dataOperand_optionBytes (o : Option Operand) (h : nopOpcodes ((o.map Operand.mode).getD .imp) ≠ []) :
    dataOperand ((o.map Operand.mode).getD .imp) (((o.map Operand.bytes).getD []).getD 0 0)
      (((o.map Operand.bytes).getD []).getD 1 0) = o := by
  cases o with
  | none => rfl
  | some o => cases o <;> simp [dataOperand, Operand.mode, Operand.bytes, wordBytes]

/-- The row of an instruction assembles it from its own bytes (R140, R195). -/
theorem assemble_of_encode {i : Instr} {op : Byte} {bytes : List Byte} (hwf : i.wf = true)
    (henc : encode i = op :: bytes) :
    assemble i.mnemonic i.mode op (bytes.getD 0 0) (bytes.getD 1 0) = i := by
  cases i with
  | lda o | ldx o | ldy o | sta o | stx o | sty o | adc o | sbc o | and o | ora o | eor o | bit o | cmp o | cpx o
  | cpy o | inc o | dec o | asl o | lsr o | rol o | ror o | lax o | sax o | dcp o | isb o | slo o | rla o | sre o
  | rra o
  | sha o =>
    obtain ⟨-, rfl⟩ := List.cons.inj henc
    simp only [assemble, Instr.mnemonic, Instr.mode, dataOperand_bytes]
  | jmp t =>
    obtain ⟨-, rfl⟩ := List.cons.inj henc
    cases t with
    | abs a | ind a => simp [assemble, Instr.mnemonic, Instr.mode, JumpTarget.mode, JumpTarget.bytes, wordBytes]
  | jsr a | las a | shx a | shy a | tas a =>
    obtain ⟨-, rfl⟩ := List.cons.inj henc
    simp only [assemble, Instr.mnemonic, w16_wordBytes]
  | nopU k o =>
    obtain ⟨rfl, rfl⟩ := List.cons.inj henc
    have hmode := List.ne_nil_of_mem (List.contains_iff_mem.mp hwf)
    simp only [assemble, Instr.mnemonic, Instr.mode, dataOperand_optionBytes o hmode]
  | anc _ b | jam _ | bpl b | bmi b | bvc b | bvs b | bcc b | bcs b | bne b | beq b | sbcU b | alr b | arr b | axs b
  | xaa b | lxa b =>
    obtain ⟨rfl, rfl⟩ := List.cons.inj henc
    rfl
  | tax | tay | txa | tya | tsx | txs | inx | iny | dex | dey | pha | php | pla | plp | rts | rti | brk | clc | sec
  | cli | sei | cld | sed | clv | nop | nmi | irq => rfl

/-- What the decoder reads from an opcode byte, the operand bytes its mode fetches, and any bytes after them. -/
theorem decode_append {op : Byte} {bytes : List Byte} (h : bytes.length = (descriptor op).mode.operandBytes)
    (rest : List Byte) :
    decode (op :: bytes ++ rest) = .ok (instrOf op (bytes.getD 0 0) (bytes.getD 1 0), rest) := by
  match bytes, h with
  | [], h => exact decode_none h.symm rest
  | [l], h => exact decode_one h.symm l rest
  | [l, hb], h => exact decode_two h.symm l hb rest
  | _ :: _ :: _ :: _, h =>
    have hle : (descriptor op).mode.operandBytes ≤ 2 := by cases (descriptor op).mode <;> decide
    simp only [List.length_cons] at h
    omega

/-- Settles O1: the bytes index the instruction's own row, and the row assembles the instruction from them. -/
theorem decodeOfEncode : Obligations.DecodeOfEncode := by
  intro i rest hwf hfetch
  obtain ⟨op, bytes, henc, hmn, hmode, hlen⟩ := encodingRow i hwf hfetch
  rw [henc, decode_append (by rw [hlen, hmode]), instrOf, hmn, hmode, assemble_of_encode hwf henc]

/-- An opcode byte is one that the "Encoding" line of a mnemonic lists for a mode (files 41 to 47). -/
def listsOpcode (m : Mnemonic) (mode : Mode) (op : Byte) : Bool :=
  match m with
  | .nopU => (nopOpcodes mode).contains op
  | .anc => mode == .imm && ancOpcodes.contains op
  | .jam => mode == .imp && jamOpcodes.contains op
  | m => m.encodings.contains (mode, op)

/-- The table of R157 is the "Encoding" lines put together: each byte is listed for the mnemonic and mode of its row. -/
theorem descriptor_listed (op : Byte) : listsOpcode (descriptor op).mnemonic (descriptor op).mode op = true := by
  revert op; decide +kernel

/-- The opcode of an entry of an "Encoding" line. -/
theorem opcodeFor_of_listed (m : Mnemonic) : ∀ e ∈ m.encodings, opcodeFor m e.1 = e.2 := by
  cases m <;> decide +kernel

/-- A mode with a data operand (R144 to R154). -/
def Mode.hasDataOperand : Mode → Bool
  | .imp | .ind | .rel => false
  | .acc | .imm | .zp | .zpx | .zpy | .abs | .abx | .aby | .izx | .izy => true

/-- The data operand of a mode has the mode, and its bytes are the fetched ones. -/
theorem dataOperand_getD {mode : Mode} (h : mode.hasDataOperand = true) (l hb : Byte) :
    ((dataOperand mode l hb).getD .acc).mode = mode ∧
      ((dataOperand mode l hb).getD .acc).bytes = [l, hb].take mode.operandBytes := by
  cases mode with
  | imp | ind | rel => simp [Mode.hasDataOperand] at h
  | acc | imm | zp | zpx | zpy | izx | izy => exact ⟨rfl, rfl⟩
  | abs | abx | aby => simp [dataOperand, Operand.mode, Operand.bytes, wordBytes, Mode.operandBytes]

/-- The modes a rule lists for a mnemonic with an operand, and that each has a data operand. -/
theorem operandModes_of_listed (m : Mnemonic) :
    ∀ e ∈ m.encodings, m.operandModes = [] ∨ m.operandModes.contains e.1 = true ∧ e.1.hasDataOperand = true := by
  cases m <;> decide +kernel

/-- The data operands of a *NOP (R360): absent in the implied forms, of the mode in the others. -/
theorem nopOperand_listed {mode : Mode} {op : Byte} (h : op ∈ nopOpcodes mode) (l hb : Byte) :
    ((dataOperand mode l hb).map Operand.mode).getD .imp = mode ∧
      ((dataOperand mode l hb).map Operand.bytes).getD [] = [l, hb].take mode.operandBytes := by
  cases mode with
  | imp | imm | zp | zpx => exact ⟨rfl, rfl⟩
  | abs | abx => simp [dataOperand, Operand.mode, Operand.bytes, wordBytes, Mode.operandBytes]
  | acc | zpy | aby | ind | izx | izy | rel => simp [nopOpcodes] at h

/-- The instruction a listed opcode stands for: its bytes are the opcode and the operand bytes of its mode, and it is a
well-formed row of its mnemonic and mode. -/
theorem assemble_of_listed {m : Mnemonic} {mode : Mode} {op : Byte} (h : listsOpcode m mode op = true) (l hb : Byte) :
    encode (assemble m mode op l hb) = op :: [l, hb].take mode.operandBytes ∧
      (assemble m mode op l hb).wf = true ∧ (assemble m mode op l hb).fetchable = true ∧
      (assemble m mode op l hb).mnemonic = m ∧ (assemble m mode op l hb).mode = mode := by
  cases m with
  | lda | ldx | ldy | sta | stx | sty | adc | sbc | and | ora | eor | bit | cmp | cpx | cpy | inc | dec | asl | lsr
  | rol | ror | lax | sax | dcp | isb | slo | rla | sre | rra | sha =>
    have hmem := List.contains_iff_mem.mp h
    have hop := opcodeFor_of_listed _ _ hmem
    obtain ⟨hwf, hdata⟩ := (operandModes_of_listed _ _ hmem).resolve_left (by decide)
    obtain ⟨hm, hbytes⟩ := dataOperand_getD hdata l hb
    simp only [assemble, encode, Instr.wf, Instr.fetchable, Instr.mnemonic, Instr.mode, hm, hbytes]
    exact ⟨congrArg (· :: _) hop, hwf, rfl, trivial, trivial⟩
  | nopU =>
    obtain ⟨hm, hbytes⟩ := nopOperand_listed (List.contains_iff_mem.mp h) l hb
    simp only [assemble, encode, Instr.wf, Instr.fetchable, Instr.mnemonic, Instr.mode, hm, hbytes]
    exact ⟨trivial, h, rfl, trivial, trivial⟩
  | anc | jam =>
    obtain ⟨hm, hop⟩ := Bool.and_eq_true_iff.mp h
    obtain rfl := beq_iff_eq.mp hm
    exact ⟨rfl, hop, rfl, rfl, rfl⟩
  | jmp =>
    have hmem := List.contains_iff_mem.mp h
    simp only [Mnemonic.encodings, List.mem_cons, Prod.mk.injEq, List.not_mem_nil, or_false] at hmem
    rcases hmem with ⟨rfl, rfl⟩ | ⟨rfl, rfl⟩ <;>
      exact ⟨by simp [assemble, encode, JumpTarget.bytes, JumpTarget.mode, wordBytes, Mode.operandBytes]; rfl,
        rfl, rfl, rfl, rfl⟩
  | jsr | las | shx | shy | tas =>
    obtain ⟨rfl, rfl⟩ := Prod.mk.inj (List.mem_singleton.mp (List.contains_iff_mem.mp h))
    exact ⟨by simp [assemble, encode, wordBytes, Mode.operandBytes]; rfl, rfl, rfl, rfl, rfl⟩
  | bpl | bmi | bvc | bvs | bcc | bcs | bne | beq | sbcU | alr | arr | axs | xaa | lxa | tax | tay | txa | tya | tsx
  | txs | inx | iny | dex | dey | pha | php | pla | plp | rts | rti | brk | clc | sec | cli | sei | cld | sed | clv
  | nop =>
    obtain ⟨rfl, rfl⟩ := Prod.mk.inj (List.mem_singleton.mp (List.contains_iff_mem.mp h))
    exact ⟨rfl, rfl, rfl, rfl, rfl⟩
  | nmi | irq => simp [listsOpcode, Mnemonic.encodings] at h

/-- The instruction of an opcode byte and operand bytes. -/
theorem instrOf_row (op l hb : Byte) :
    encode (instrOf op l hb) = op :: [l, hb].take (descriptor op).mode.operandBytes ∧
      (instrOf op l hb).wf = true ∧ (instrOf op l hb).fetchable = true ∧
      (instrOf op l hb).mnemonic = (descriptor op).mnemonic ∧ (instrOf op l hb).mode = (descriptor op).mode :=
  assemble_of_listed (descriptor_listed op) l hb

theorem Mode.operandBytes_le (mode : Mode) : mode.operandBytes ≤ 2 := by cases mode <;> decide

/-- Settles O2: a decoded instruction is the one its opcode's row assembles, whose bytes are the opcode and as many
operand bytes as were taken. -/
theorem encodeOfDecode : Obligations.EncodeOfDecode := by
  intro bytes rest i hdec
  match bytes with
  | [] => simp [decode] at hdec
  | op :: tail =>
    simp only [decode] at hdec
    split at hdec
    case h_1 hn =>
      obtain ⟨rfl, rfl⟩ := Prod.mk.inj (Except.ok.inj hdec)
      obtain ⟨henc, hwf, hfetch, -⟩ := instrOf_row op 0 0
      exact ⟨by rw [henc, hn]; rfl, hwf, hfetch⟩
    case h_2 l tail hn =>
      obtain ⟨rfl, rfl⟩ := Prod.mk.inj (Except.ok.inj hdec)
      obtain ⟨henc, hwf, hfetch, -⟩ := instrOf_row op l 0
      exact ⟨by rw [henc, hn]; rfl, hwf, hfetch⟩
    case h_3 l hb tail hn =>
      obtain ⟨rfl, rfl⟩ := Prod.mk.inj (Except.ok.inj hdec)
      obtain ⟨henc, hwf, hfetch, -⟩ := instrOf_row op l hb
      exact ⟨by rw [henc, hn]; rfl, hwf, hfetch⟩
    case h_4 => simp at hdec

/-- With the operand bytes its mode takes an opcode decodes, whatever they are. -/
theorem decode_full (op l hb : Byte) (rest : List Byte) :
    ∃ l' hb', decode (op :: l :: hb :: rest) =
      .ok (instrOf op l' hb', (l :: hb :: rest).drop (descriptor op).mode.operandBytes) := by
  have hle := (descriptor op).mode.operandBytes_le
  generalize hn : (descriptor op).mode.operandBytes = n at hle
  match n, hle with
  | 0, _ => exact ⟨0, 0, decode_none hn _⟩
  | 1, _ => exact ⟨l, 0, decode_one hn l _⟩
  | 2, _ => exact ⟨l, hb, decode_two hn l hb _⟩

/-- With fewer operand bytes than its mode takes an opcode is rejected as truncated. -/
theorem decode_truncated {op : Byte} {short : List Byte} (h : short.length < (descriptor op).mode.operandBytes) :
    decode (op :: short) = .error (.truncated op) := by
  have hle := (descriptor op).mode.operandBytes_le
  simp only [decode]
  split
  case h_1 hn => omega
  case h_2 hn => simp only [List.length_cons] at h; omega
  case h_3 hn => simp only [List.length_cons] at h; omega
  case h_4 => rfl

/-- Settles O3: the row of the opcode tells how many operand bytes are taken and what they are assembled to. -/
theorem everyByteDecodes : Obligations.EveryByteDecodes := by
  refine ⟨fun op l hb rest => ?_, fun _ _ => decode_truncated, rfl⟩
  obtain ⟨l', hb', hdec⟩ := decode_full op l hb rest
  obtain ⟨-, hwf, -, hmn, hmode⟩ := instrOf_row op l' hb'
  exact ⟨_, hdec, hwf, hmn, hmode⟩

/-- Settles O4: each word evaluates. -/
theorem sampleWordsDecode : Obligations.SampleWordsDecode :=
  ⟨rfl, rfl, rfl, rfl, rfl, rfl, rfl, rfl, rfl, rfl, rfl, rfl, rfl, rfl, rfl⟩

/-- Settles O5: the table of R157 is finite, and each of its rows evaluates. -/
theorem opcodeTableAgrees : Obligations.OpcodeTableAgrees := by
  constructor
  · intro op; revert op; decide +kernel
  · decide +kernel

end Sys2Proof
end

section
/-! PROOFS. What an instruction can do, said once: a sequence of register updates, bus reads, bus writes at the
addresses the rules name, and charged cycles. Invariants of a step are inductions over that sequence. -/

namespace Sys2Proof.Machine

open Sys2Proof.Claims

/-- t is reached from s by updates of the CPU's registers and lines, bus reads, bus writes at addresses in es, and n
cycles charged for rows of the table. -/
inductive Effects (es : Addr → Prop) (s : State) : Nat → State → Prop where
  | start : Effects es s 0 s
  | registers {n : Nat} {t : State} (h : Effects es s n t) (a x y sp : Byte) (pc : Addr) (p : Flags)
      (halted nmi irq : Bool) :
      Effects es s n { t with
        a := a, x := x, y := y, sp := sp, pc := pc, p := p, halted := halted, nmiPending := nmi, irqPending := irq }
  | read {n : Nat} {t : State} (h : Effects es s n t) (a : Addr) : Effects es s n (memRead a t).2
  | write {n : Nat} {t : State} (h : Effects es s n t) {e : Addr} (he : es e) (b : Byte) :
      Effects es s n (memWrite e b t)
  | charge {n : Nat} {t : State} (h : Effects es s n t) (k : Nat) : Effects es s (n + k) (t.charge k)

namespace Effects

variable {es es' : Addr → Prop} {s t u : State} {n m : Nat}

theorem mono (h : Effects es s n t) (hes : ∀ e, es e → es' e) : Effects es' s n t := by
  induction h with
  | start => exact .start
  | registers _ a x y sp pc p halted nmi irq ih => exact ih.registers a x y sp pc p halted nmi irq
  | read _ a ih => exact ih.read a
  | write _ he b ih => exact ih.write (hes _ he) b
  | charge _ k ih => exact ih.charge k

theorem trans (h : Effects es s n t) (h' : Effects es t m u) : Effects es s (n + m) u := by
  induction h' with
  | start => exact h
  | registers _ a x y sp pc p halted nmi irq ih => exact ih.registers a x y sp pc p halted nmi irq
  | read _ a ih => exact ih.read a
  | write _ he b ih => exact ih.write he b
  | charge _ k ih => rw [← Nat.add_assoc]; exact ih.charge k

theorem setPc (h : Effects es s n t) (pc : Addr) : Effects es s n (t.setPc pc) :=
  h.registers t.a t.x t.y t.sp pc t.p t.halted t.nmiPending t.irqPending

theorem setP (h : Effects es s n t) (p : Flags) : Effects es s n (t.setP p) :=
  h.registers t.a t.x t.y t.sp t.pc p t.halted t.nmiPending t.irqPending

theorem setSp (h : Effects es s n t) (sp : Byte) : Effects es s n (t.setSp sp) :=
  h.registers t.a t.x t.y sp t.pc t.p t.halted t.nmiPending t.irqPending

theorem setHalted (h : Effects es s n t) (halted : Bool) : Effects es s n (t.setHalted halted) :=
  h.registers t.a t.x t.y t.sp t.pc t.p halted t.nmiPending t.irqPending

theorem setNmi (h : Effects es s n t) (nmi : Bool) : Effects es s n (t.setNmi nmi) :=
  h.registers t.a t.x t.y t.sp t.pc t.p t.halted nmi t.irqPending

theorem setIrq (h : Effects es s n t) (irq : Bool) : Effects es s n (t.setIrq irq) :=
  h.registers t.a t.x t.y t.sp t.pc t.p t.halted t.nmiPending irq

theorem loadA (h : Effects es s n t) (v : Byte) : Effects es s n (t.loadA v) :=
  h.registers v t.x t.y t.sp t.pc (t.p.setNZ v) t.halted t.nmiPending t.irqPending

theorem loadX (h : Effects es s n t) (v : Byte) : Effects es s n (t.loadX v) :=
  h.registers t.a v t.y t.sp t.pc (t.p.setNZ v) t.halted t.nmiPending t.irqPending

theorem loadY (h : Effects es s n t) (v : Byte) : Effects es s n (t.loadY v) :=
  h.registers t.a t.x v t.sp t.pc (t.p.setNZ v) t.halted t.nmiPending t.irqPending

theorem loadAX (h : Effects es s n t) (v : Byte) : Effects es s n (t.loadAX v) :=
  h.registers v v t.y t.sp t.pc (t.p.setNZ v) t.halted t.nmiPending t.irqPending

theorem setA (h : Effects es s n t) (v : Byte) : Effects es s n (t.setA v) :=
  h.registers v t.x t.y t.sp t.pc t.p t.halted t.nmiPending t.irqPending

theorem setX (h : Effects es s n t) (v : Byte) : Effects es s n (t.setX v) :=
  h.registers t.a v t.y t.sp t.pc t.p t.halted t.nmiPending t.irqPending

theorem addToA (h : Effects es s n t) (v : Byte) (c : Bool) : Effects es s n (t.addToA v c) :=
  h.registers (addC t.a v c).1 t.x t.y t.sp t.pc (t.p.ofAdd (addC t.a v c)) t.halted t.nmiPending t.irqPending

theorem readLoc (h : Effects es s n t) (loc : Loc) : Effects es s n (readLoc loc t).2 := by
  cases loc with
  | acc | imm _ => exact h
  | mem ea _ => exact h.read ea

theorem writeOf (h : Effects es s n t) {o : Operand} {ea : Addr} (he : o ≠ .acc → es ea) (b : Byte) :
    Effects es s n (writeOf o ea b t) := by
  cases o with
  | acc => exact h.registers b t.x t.y t.sp t.pc t.p t.halted t.nmiPending t.irqPending
  | imm _ => exact h
  | zp _ | zpx _ | zpy _ | abs _ | abx _ | aby _ | izx _ | izy _ => exact h.write (he (by simp)) b

theorem read16 (h : Effects es s n t) (a : Addr) : Effects es s n (read16 a t).2 := (h.read a).read _

theorem read16Page (h : Effects es s n t) (a : Addr) : Effects es s n (read16Page a t).2 := (h.read a).read _

theorem push (h : Effects es s n t) (he : es (stackAddr t.sp)) (b : Byte) : Effects es s n (push b t) :=
  (h.write he b).setSp _

theorem pull (h : Effects es s n t) : Effects es s n (pull t).2 := (h.setSp _).read _

theorem push16 (h : Effects es s n t) (he : es (stackAddr t.sp)) (he' : es (stackAddr (t.sp - 1))) (w : Addr) :
    Effects es s n (push16 w t) := (h.push he _).push he' _

theorem pull16 (h : Effects es s n t) : Effects es s n (pull16 t).2 := h.pull.pull

theorem enterInterrupt (h : Effects es s n t) (he : es (stackAddr t.sp)) (he' : es (stackAddr (t.sp - 1)))
    (he'' : es (stackAddr (t.sp - 2))) (vec ret : Addr) (brk : Bool) :
    Effects es s n (enterInterrupt vec ret brk t) := by
  have hsp : (Machine.push16 ret t).sp = t.sp - 2 := by rw [push16_eq]; rfl
  exact ((((h.push16 he he' ret).push (by rwa [hsp]) _).setP _).read16 vec).setPc _

theorem returnFromInterrupt (h : Effects es s n t) : Effects es s n (returnFromInterrupt t) :=
  ((h.pull.setP _).pull16).setPc _

theorem fetchByte (h : Effects es s n t) : Effects es s n (fetchByte t).2 := (h.read t.pc).setPc _

theorem fetchOperands (h : Effects es s n t) (k : Nat) : Effects es s n (fetchOperands k t).2 := by
  unfold Machine.fetchOperands
  split
  · exact h
  · exact h.fetchByte
  · exact h.fetchByte.fetchByte

theorem fetchInstr (h : Effects es s n t) : Effects es s n (fetchInstr t).2 := h.fetchByte.fetchOperands _

/-- The one read of an operand, with its row charged (R162, R198). -/
theorem loadOperand (m : Mnemonic) (o : Operand) :
    Effects es s (0 + (baseCycles m o.mode + pagePenalty m o.mode (resolve o s).1.crossed)) (loadOperand m o s).2 := by
  simp only [Machine.loadOperand, resolve_snd]
  exact (start.readLoc _).charge _

/-- The one write of a store, with its row charged (R85, R198). -/
theorem storeOperand {o : Operand} (he : o ≠ .acc → es (eaOf o s)) (m : Mnemonic) (b : Byte) :
    Effects es s (0 + (baseCycles m o.mode + pagePenalty m o.mode (resolve o s).1.crossed)) (storeOperand m o b s) := by
  simp only [Machine.storeOperand, resolve_snd, writeLoc_resolve]
  exact (start.writeOf he b).charge _

/-- The read and the write of a modification, with its row charged (R85, R198). -/
theorem modifyOperand {o : Operand} (he : o ≠ .acc → es (eaOf o s)) (m : Mnemonic) (f : Byte → Byte) :
    Effects es s (0 + (baseCycles m o.mode + pagePenalty m o.mode (resolve o s).1.crossed))
      (modifyOperand m o f s).2 := by
  simp only [Machine.modifyOperand, resolve_snd, writeLoc_resolve]
  exact ((start.readLoc _).writeOf he _).charge _

/-- A shift of memory is a modification, then its carry (R356 to R359). -/
theorem shiftMemory {o : Operand} (he : o ≠ .acc → es (eaOf o s)) (m : Mnemonic) (f : Byte → Byte × Bool) :
    Effects es s (0 + (baseCycles m o.mode + pagePenalty m o.mode (resolve o s).1.crossed))
      (shiftMemory m f o s).2 := (modifyOperand he m _).setP _

end Effects

/-- An operand in memory resolves to its effective address and its base address (R146 to R154). -/
theorem resolve_of_memory {o : Operand} (hacc : o ≠ .acc) (himm : ∀ b, o ≠ .imm b) (s : State) :
    (resolve o s).1 = .mem (eaOf o s) (baseOf o s) := by
  cases o with
  | acc => exact absurd rfl hacc
  | imm b => exact absurd rfl (himm b)
  | izx _ | izy _ => simp only [resolve, read16Page_zeroPage]; rfl
  | zp _ | zpx _ | zpy _ | abs _ | abx _ | aby _ => rfl

/-- The store of the unstable group to memory: one write under H + 1, with its row charged (R369 to R372). -/
theorem storeUnderHigh_of_memory (m : Mnemonic) {o : Operand} (hacc : o ≠ .acc) (himm : ∀ b, o ≠ .imm b) (b : Byte)
    (s : State) :
    storeUnderHigh m o b s =
      (memWrite (underHighAddr o b s) (b &&& (hi (baseOf o s) + 1)) s).charge
        (baseCycles m o.mode + pagePenalty m o.mode (crosses o s)) := by
  simp only [storeUnderHigh, resolve_snd, resolve_of_memory hacc himm]
  rfl

/-- The store of the unstable group makes at most its one write, with its row charged (R369 to R372). -/
theorem Effects.storeUnderHigh {es : Addr → Prop} {s t : State} {n : Nat} (h : Effects es s n t) (m : Mnemonic)
    {o : Operand} {b : Byte} (he : es (underHighAddr o b t)) :
    ∃ k, Effects es s (n + (baseCycles m o.mode + k)) (storeUnderHigh m o b t) := by
  cases o with
  | acc | imm _ => exact ⟨_, h.charge _⟩
  | zp _ | zpx _ | zpy _ | abs _ | abx _ | aby _ | izx _ | izy _ =>
    rw [storeUnderHigh_of_memory m (by simp) (by simp)]
    exact ⟨_, (h.write he _).charge _⟩

/-- Every row costs a cycle or more (R157). -/
theorem baseCycles_pos (m : Mnemonic) (mode : Mode) : 1 ≤ baseCycles m mode := by
  cases m <;> cases mode <;> decide

theorem rowCycles_pos (m : Mnemonic) (mode : Mode) (k : Nat) : 1 ≤ 0 + (baseCycles m mode + k) := by
  have := baseCycles_pos m mode
  omega

/-- Under refuse the unstable group answers no next state (R366). -/
theorem whenNmos_next {s t u : State} (h : whenNmos s t = .next u) : s.params.unstableMode = .nmos ∧ u = t := by
  unfold whenNmos at h
  split at h
  · exact ⟨by assumption, (Host.Outcome.next.inj h).symm⟩
  · cases h

/-- What is done before a row's base cost is charged (R198). -/
theorem Effects.chargeBase {es : Addr → Prop} {s t : State} (h : Effects es s 0 t) (m : Mnemonic) (mode : Mode) :
    ∃ n, 1 ≤ n ∧ Effects es s n (chargeBase m mode t) :=
  ⟨_, rowCycles_pos m mode 0, h.charge _⟩

/-- A branch charges its row, and on a taken branch its penalty (R315, R200). -/
theorem branch_effects {es : Addr → Prop} (m : Mnemonic) (cond : Bool) (disp : Byte) (s : State) :
    ∃ n, 1 ≤ n ∧ Effects es s n (branch m cond disp s) := by
  have hbase : Effects es s (0 + (baseCycles m .rel + 0)) (chargeBase m .rel s) := Effects.start.charge _
  unfold branch
  cases cond with
  | false => exact ⟨_, rowCycles_pos _ _ _, hbase⟩
  | true => exact ⟨_, Nat.le_add_right_of_le (rowCycles_pos _ _ _), (hbase.charge _).setPc _⟩

/-- The slots an interrupt entry pushes to (R405, R314). -/
theorem storedAt_entry {i : Instr} (hi : i = .brk ∨ i = .nmi ∨ i = .irq) (s : State) :
    stackAddr s.sp ∈ storedAt i s ∧ stackAddr (s.sp - 1) ∈ storedAt i s ∧ stackAddr (s.sp - 2) ∈ storedAt i s := by
  obtain rfl | rfl | rfl := hi <;> simp [storedAt, stackAddr]

/-- The entry of an interrupt from a state with s's stack pointer. -/
theorem entry_effects {i : Instr} (hi : i = .brk ∨ i = .nmi ∨ i = .irq) {s t : State} (hsp : t.sp = s.sp)
    (h : Effects (· ∈ storedAt i s) s 0 t) (vec ret : Addr) (brk : Bool) (m : Mnemonic) (mode : Mode) :
    ∃ n, 1 ≤ n ∧ Effects (· ∈ storedAt i s) s n (chargeBase m mode (enterInterrupt vec ret brk t)) := by
  obtain ⟨h0, h1, h2⟩ := storedAt_entry hi s
  rw [← hsp] at h0 h1 h2
  exact (h.enterInterrupt h0 h1 h2 vec ret brk).chargeBase m mode

/-- What every instruction does: its effects write only where `storedAt` says, and its row is charged. -/
theorem exec_effects {i : Instr} {s t : State} (h : exec i s = .next t) :
    ∃ n, 1 ≤ n ∧ Effects (· ∈ storedAt i s) s n t := by
  cases i with
  | lda o | and o | ora o | eor o =>
    obtain rfl := Host.Outcome.next.inj h
    exact ⟨_, rowCycles_pos _ _ _, (Effects.loadOperand _ o).loadA _⟩
  | ldx o =>
    obtain rfl := Host.Outcome.next.inj h
    exact ⟨_, rowCycles_pos _ _ _, (Effects.loadOperand _ o).loadX _⟩
  | ldy o =>
    obtain rfl := Host.Outcome.next.inj h
    exact ⟨_, rowCycles_pos _ _ _, (Effects.loadOperand _ o).loadY _⟩
  | lax o =>
    obtain rfl := Host.Outcome.next.inj h
    exact ⟨_, rowCycles_pos _ _ _, (Effects.loadOperand _ o).loadAX _⟩
  | adc o | sbc o =>
    obtain rfl := Host.Outcome.next.inj h
    exact ⟨_, rowCycles_pos _ _ _, (Effects.loadOperand _ o).addToA _ _⟩
  | bit o | cmp o | cpx o | cpy o =>
    obtain rfl := Host.Outcome.next.inj h
    exact ⟨_, rowCycles_pos _ _ _, (Effects.loadOperand _ o).setP _⟩
  | sbcU b =>
    obtain rfl := Host.Outcome.next.inj h
    exact ⟨_, rowCycles_pos _ _ _, (Effects.loadOperand _ (.imm b)).addToA _ _⟩
  | anc _ b | arr b =>
    obtain rfl := Host.Outcome.next.inj h
    exact ⟨_, rowCycles_pos _ _ _, ((Effects.loadOperand _ (.imm b)).loadA _).setP _⟩
  | alr b =>
    obtain rfl := Host.Outcome.next.inj h
    exact ⟨_, rowCycles_pos _ _ _, ((Effects.loadOperand _ (.imm b)).setA _).setP _⟩
  | axs b =>
    obtain rfl := Host.Outcome.next.inj h
    exact ⟨_, rowCycles_pos _ _ _, ((Effects.loadOperand _ (.imm b)).setX _).setP _⟩
  | las a =>
    obtain rfl := Host.Outcome.next.inj h
    exact ⟨_, rowCycles_pos _ _ _, ((Effects.loadOperand _ (.aby a)).loadAX _).setSp _⟩
  | xaa b =>
    obtain ⟨-, rfl⟩ := whenNmos_next h
    exact ⟨_, rowCycles_pos _ _ _, (Effects.loadOperand _ (.imm b)).loadA _⟩
  | lxa b =>
    obtain ⟨-, rfl⟩ := whenNmos_next h
    exact ⟨_, rowCycles_pos _ _ _, (Effects.loadOperand _ (.imm b)).loadAX _⟩
  | nopU _ o =>
    cases o with
    | none =>
      obtain rfl := Host.Outcome.next.inj h
      exact ⟨_, rowCycles_pos .nopU .imp 0, Effects.start.charge _⟩
    | some o =>
      obtain rfl := Host.Outcome.next.inj h
      exact ⟨_, rowCycles_pos _ _ _, Effects.loadOperand _ o⟩
  | sta o | stx o | sty o | sax o =>
    obtain rfl := Host.Outcome.next.inj h
    exact ⟨_, rowCycles_pos _ _ _, Effects.storeOperand (fun ho => by simp [storedAt, ho]) _ _⟩
  | inc o | dec o | asl o | lsr o | rol o | ror o | dcp o =>
    obtain rfl := Host.Outcome.next.inj h
    exact ⟨_, rowCycles_pos _ _ _, (Effects.modifyOperand (fun ho => by simp [storedAt, ho]) _ _).setP _⟩
  | isb o =>
    obtain rfl := Host.Outcome.next.inj h
    exact ⟨_, rowCycles_pos _ _ _, (Effects.modifyOperand (fun ho => by simp [storedAt, ho]) _ _).addToA _ _⟩
  | slo o | rla o | sre o =>
    obtain rfl := Host.Outcome.next.inj h
    exact ⟨_, rowCycles_pos _ _ _, (Effects.shiftMemory (fun ho => by simp [storedAt, ho]) _ _).loadA _⟩
  | rra o =>
    obtain rfl := Host.Outcome.next.inj h
    exact ⟨_, rowCycles_pos _ _ _, (Effects.shiftMemory (fun ho => by simp [storedAt, ho]) _ _).addToA _ _⟩
  | sha o =>
    obtain ⟨-, rfl⟩ := whenNmos_next h
    obtain ⟨k, hk⟩ := Effects.start.storeUnderHigh .sha (List.mem_singleton_self _)
    exact ⟨_, rowCycles_pos _ _ _, hk⟩
  | shx a | shy a =>
    obtain ⟨-, rfl⟩ := whenNmos_next h
    obtain ⟨k, hk⟩ := Effects.start.storeUnderHigh _ (List.mem_singleton_self _)
    exact ⟨_, rowCycles_pos _ _ _, hk⟩
  | tas a =>
    obtain ⟨-, rfl⟩ := whenNmos_next h
    have haddr : underHighAddr (.aby a) (s.a &&& s.x) (s.setSp (s.a &&& s.x)) ∈ storedAt (.tas a) s :=
      List.mem_singleton_self (underHighAddr (.aby a) (s.a &&& s.x) s)
    obtain ⟨k, hk⟩ := (Effects.start.setSp (s.a &&& s.x)).storeUnderHigh .tas haddr
    exact ⟨_, rowCycles_pos _ _ _, hk⟩
  | tax | tsx | inx | dex =>
    obtain rfl := Host.Outcome.next.inj h
    exact (Effects.start.loadX _).chargeBase _ _
  | tay | iny | dey =>
    obtain rfl := Host.Outcome.next.inj h
    exact (Effects.start.loadY _).chargeBase _ _
  | txa | tya =>
    obtain rfl := Host.Outcome.next.inj h
    exact (Effects.start.loadA _).chargeBase _ _
  | txs =>
    obtain rfl := Host.Outcome.next.inj h
    exact (Effects.start.setSp _).chargeBase _ _
  | clc | sec | cli | sei | cld | sed | clv =>
    obtain rfl := Host.Outcome.next.inj h
    exact (Effects.start.setP _).chargeBase _ _
  | nop =>
    obtain rfl := Host.Outcome.next.inj h
    exact Effects.start.chargeBase _ _
  | jam _ =>
    obtain rfl := Host.Outcome.next.inj h
    exact (Effects.start.setHalted true).chargeBase _ _
  | pha | php =>
    obtain rfl := Host.Outcome.next.inj h
    exact (Effects.start.push (by simp [storedAt, stackAddr]) _).chargeBase _ _
  | pla =>
    obtain rfl := Host.Outcome.next.inj h
    exact (Effects.start.pull.loadA _).chargeBase _ _
  | plp =>
    obtain rfl := Host.Outcome.next.inj h
    exact (Effects.start.pull.setP _).chargeBase _ _
  | jmp target =>
    obtain rfl := Host.Outcome.next.inj h
    cases target with
    | abs a => exact (Effects.start.setPc _).chargeBase _ _
    | ind a => exact ((Effects.start.read16Page a).setPc _).chargeBase _ _
  | jsr a =>
    obtain rfl := Host.Outcome.next.inj h
    exact ((Effects.start.push16 (by simp [storedAt, stackAddr]) (by simp [storedAt, stackAddr]) _).setPc _).chargeBase
      _ _
  | rts =>
    obtain rfl := Host.Outcome.next.inj h
    exact (Effects.start.pull16.setPc _).chargeBase _ _
  | rti =>
    obtain rfl := Host.Outcome.next.inj h
    exact Effects.start.returnFromInterrupt.chargeBase _ _
  | brk =>
    obtain rfl := Host.Outcome.next.inj h
    exact entry_effects (.inl rfl) rfl .start _ _ _ _ _
  | nmi =>
    obtain rfl := Host.Outcome.next.inj h
    exact entry_effects (s := s) (t := s.setNmi false) (.inr (.inl rfl)) rfl (Effects.start.setNmi false) _ _ _ _ _
  | irq =>
    obtain rfl := Host.Outcome.next.inj h
    exact entry_effects (s := s) (t := s.setIrq false) (.inr (.inr rfl)) rfl (Effects.start.setIrq false) _ _ _ _ _
  | bpl d | bmi d | bvc d | bvs d | bcc d | bcs d | bne d | beq d =>
    obtain rfl := Host.Outcome.next.inj h
    exact branch_effects _ _ d s

end Sys2Proof.Machine
end

section
/-! PROOFS. Reads of the CPU bus by address range, and what a read can change (R70 to R83). -/

namespace Sys2Proof.Machine

open Sys2Proof.Claims

/-- The bank map of mapper 0 is the image, mirrored when it has one page (R77, R91). -/
theorem prgIndex_eq (cart : Cartridge) {k : Nat} (h : 0x8000 ≤ k) (h' : k < 0x10000) :
    prgIndex cart (k / 0x2000 - 4) (k % 0x2000) =
      if cart.prgPages = 1 then (k - 0x8000) % 0x4000 else k - 0x8000 := by
  have hwindow : k / 0x2000 - 4 = 0 ∨ k / 0x2000 - 4 = 1 ∨ k / 0x2000 - 4 = 2 ∨ k / 0x2000 - 4 = 3 := by omega
  unfold prgIndex bankMap
  split <;> obtain hw | hw | hw | hw := hwindow <;> rw [hw] <;> simp <;> omega

/-- A program ROM byte by its CPU address (R77, R91). -/
theorem romByte_eq {a : Addr} (h : 0x8000 ≤ a.toNat) (s : State) : romByte s a = rom s a := by
  rw [romByte, rom, prgIndex_eq s.cart h a.isLt]

theorem memRead_eq_rom {a : Addr} (h : 0x8000 ≤ a.toNat) (s : State) : memRead a s = (rom s a, s) := by
  rw [memRead_romByte h, romByte_eq h]

/-- Settles O19: the bank map of the window is the image, mirrored or whole. -/
theorem romWindow : Obligations.RomWindow := fun s _ v h => ⟨memRead_eq_rom h s, memWrite_of_rom h v s⟩

/-- A read of the PRG-RAM window in ram mode (R76). -/
theorem memRead_of_prgRam {a : Addr} (h : 0x6000 ≤ a.toNat) (h' : a.toNat < 0x8000) {s : State}
    (hmode : s.params.prgRamMode = .ram) : memRead a s = (s.prgRam.read (a.toNat % 0x2000), s) := by
  simp only [memRead, busDecode_prgRam h h', readTarget, hmode]

/-- A read of a stub PRG-RAM window (R76). -/
theorem memRead_of_stub {a : Addr} (h : 0x6000 ≤ a.toNat) (h' : a.toNat < 0x8000) {s : State}
    (hmode : s.params.prgRamMode = .stub) : memRead a s = openBus s := by
  simp only [memRead, busDecode_prgRam h h', readTarget, hmode]

/-- A read of a PPU register (R73). -/
theorem memRead_ppuReg {a : Addr} (h : 0x2000 ≤ a.toNat) (h' : a.toNat < 0x4000) (s : State) :
    memRead a s = ppuRegRead (a.toNat % 8) s := by
  simp only [memRead, busDecode_ppu h h', readTarget]

/-- A read of 0x4000-0x5FFF but the two ports is undriven (R74, R75). -/
theorem memRead_io {a : Addr} (h : 0x4000 ≤ a.toNat) (h' : a.toNat < 0x6000) (h1 : a ≠ 0x4016) (h2 : a ≠ 0x4017)
    (s : State) : memRead a s = openBus s := by
  have h1' : a.toNat ≠ 0x4016 := fun he => h1 (BitVec.eq_of_toNat_eq he)
  have h2' : a.toNat ≠ 0x4017 := fun he => h2 (BitVec.eq_of_toNat_eq he)
  simp only [memRead, busDecode_io h h', ioDecode]
  split
  · rfl
  · contradiction
  · contradiction
  · rfl

/-- A write of 0x4000-0x5FFF but the DMA and the strobe is ignored (R74, R75). -/
theorem memWrite_io {a : Addr} (h : 0x4000 ≤ a.toNat) (h' : a.toNat < 0x6000) (h1 : a ≠ 0x4014) (h2 : a ≠ 0x4016)
    (v : Byte) (s : State) : memWrite a v s = s := by
  have h1' : a.toNat ≠ 0x4014 := fun he => h1 (BitVec.eq_of_toNat_eq he)
  have h2' : a.toNat ≠ 0x4016 := fun he => h2 (BitVec.eq_of_toNat_eq he)
  simp only [memWrite, busDecode_io h h', ioDecode]
  split
  · contradiction
  · contradiction
  · rfl
  · rfl

/-- A read of a PPU register that has none (R449). -/
theorem ppuRegRead_undriven {r : Nat} (h2 : r ≠ 2) (h4 : r ≠ 4) (h7 : r ≠ 7) (s : State) :
    ppuRegRead r s = openBus s := by
  unfold ppuRegRead
  split
  · contradiction
  · contradiction
  · contradiction
  · rfl

/-- Settles O20: each range decodes to no device, or to the window's store or stub. -/
theorem undrivenAddresses : Obligations.UndrivenAddresses := by
  intro s a v
  refine ⟨fun h h' h1 h2 => memRead_io h h' h1 h2 s, fun h h' h1 h2 => memWrite_io h h' h1 h2 v s,
    fun h h' hr => ?_, fun h h' hr => ?_, fun h h' hmode => ⟨memRead_of_prgRam h h' hmode, ?_⟩,
    fun h h' hmode => ⟨memRead_of_stub h h' hmode, ?_⟩⟩
  · rw [memRead_ppuReg h h']
    simp only [List.mem_cons, List.not_mem_nil, or_false] at hr
    exact ppuRegRead_undriven (by omega) (by omega) (by omega) s
  · rw [memWrite_of_ppuReg h h', hr]; rfl
  · simp only [memWrite, busDecode_prgRam h h', writeTarget, hmode]; rfl
  · simp only [memWrite, busDecode_prgRam h h', writeTarget, hmode]

/-- Where a backing store answers, a read gives its byte and changes nothing (R80). -/
theorem memRead_of_peek {s : State} {a : Addr} {b : Byte} (h : peek s a = some b) : memRead a s = (b, s) := by
  unfold peek at h
  split at h
  next hram => obtain rfl := Option.some.inj h; exact memRead_of_ram hram s
  next hram =>
  split at h
  next => cases h
  next hdev =>
  split at h
  next hwin =>
    split at h
    next hmode => obtain rfl := Option.some.inj h; exact memRead_of_prgRam (by omega) hwin hmode
    next => cases h
  next hwin => obtain rfl := Option.some.inj h; exact memRead_eq_rom (by omega) s

/-- The serial bit of a port changes its shift register alone (R472). -/
theorem padBit_snd (strobe : Bool) (pad : Pad) :
    (padBit strobe pad).2 = { pad with shift := (padBit strobe pad).2.shift } := by
  cases strobe <;> rfl

/-- What a read can change, whatever answers it (R80). -/
theorem readTarget_effect (tgt : BusTarget) (s : State) :
    (readTarget tgt s).2 =
      { s with
        ppu := { s.ppu with
          vblank := (readTarget tgt s).2.ppu.vblank, w := (readTarget tgt s).2.ppu.w
          rdBuf := (readTarget tgt s).2.ppu.rdBuf, v := (readTarget tgt s).2.ppu.v }
        pads := { s.pads with
          pad1 := { s.pads.pad1 with shift := (readTarget tgt s).2.pads.pad1.shift }
          pad2 := { s.pads.pad2 with shift := (readTarget tgt s).2.pads.pad2.shift } }
        draws := (readTarget tgt s).2.draws } := by
  cases tgt with
  | ram _ | prgRom _ _ | oamDma | nothing => rfl
  | ppuReg r =>
    simp only [readTarget, ppuRegRead]
    split <;> rfl
  | pad1 =>
    simp only [readTarget, readPad1]
    rw [padBit_snd]
    rfl
  | pad2 =>
    simp only [readTarget, readPad2]
    rw [padBit_snd]
    rfl
  | prgRam k =>
    simp only [readTarget]
    split <;> rfl

/-- Outside PPU registers 2 and 7 and the two ports a read draws at most (R80). -/
theorem memRead_draws {a : Addr} (s : State)
    (hppu : ¬ (0x2000 ≤ a.toNat ∧ a.toNat < 0x4000 ∧ (a.toNat % 8 = 2 ∨ a.toNat % 8 = 7))) (h1 : a ≠ 0x4016)
    (h2 : a ≠ 0x4017) : (memRead a s).2 = { s with draws := (memRead a s).2.draws } := by
  by_cases hram : a.toNat < 0x2000
  · rw [memRead_of_ram hram]
  by_cases hreg : a.toNat < 0x4000
  · rw [memRead_ppuReg (by omega) hreg]
    by_cases h4 : a.toNat % 8 = 4
    · rw [h4]; rfl
    · rw [ppuRegRead_undriven (by omega) h4 (by omega)]; rfl
  by_cases hio : a.toNat < 0x6000
  · rw [memRead_io (by omega) hio h1 h2]; rfl
  by_cases hwin : a.toNat < 0x8000
  · cases hmode : s.params.prgRamMode with
    | ram => rw [memRead_of_prgRam (by omega) hwin hmode]
    | stub => rw [memRead_of_stub (by omega) hwin hmode]; rfl
  · rw [memRead_eq_rom (by omega)]

/-- Settles O21: a store answers with no effect, an undriven address draws, and each device changes its own fields. -/
theorem readSideEffects : Obligations.ReadSideEffects :=
  fun s a => ⟨fun _ => memRead_of_peek, memRead_draws s, readTarget_effect (busDecode a) s⟩

/-- A word as its two bytes, as a number (R7). -/
theorem w16_toNat (h l : Byte) : (w16 h l).toNat = h.toNat * 256 + l.toNat := by
  rw [w16, BitVec.toNat_append, ← Nat.shiftLeft_add_eq_or_of_lt l.isLt, Nat.shiftLeft_eq]

theorem hi_toNat (a : Addr) : (hi a).toNat = a.toNat / 256 := by
  have := a.isLt
  simp only [hi, BitVec.toNat_setWidth, BitVec.toNat_ushiftRight, Nat.shiftRight_eq_div_pow]
  omega

theorem lo_toNat (a : Addr) : (lo a).toNat = a.toNat % 256 := by rw [lo, BitVec.toNat_setWidth]

/-- The address after a pointer in the same page, as a number (R83). -/
theorem nextInPage_eq_ofNat (a : Addr) :
    nextInPage a = BitVec.ofNat 16 (a.toNat / 256 * 256 + (a.toNat + 1) % 256) := by
  have := a.isLt
  apply BitVec.eq_of_toNat_eq
  rw [nextInPage_eq, w16_toNat, hi_toNat, BitVec.toNat_add, lo_toNat, BitVec.toNat_ofNat,
    show (1 : Byte).toNat = 1 from rfl]
  omega

/-- Settles O24: both bytes are stored, so both reads give them and change nothing. -/
theorem wordReadsAreLittleEndian : Obligations.WordReadsAreLittleEndian := by
  intro s a l h hl
  have hnext : BitVec.ofNat 16 ((a.toNat + 1) % 65536) = a + 1 := by bv_omega
  rw [hnext, ← nextInPage_eq_ofNat]
  constructor
  · intro hh
    simp only [read16, memRead_of_peek hl, memRead_of_peek hh]
    exact ⟨w16_toNat h l, trivial⟩
  · intro hh
    simp only [read16Page, memRead_of_peek hl, memRead_of_peek hh]
    exact ⟨w16_toNat h l, trivial⟩

end Sys2Proof.Machine
end

section
/-! PROOFS. What every instruction and every step keep, by induction over an instruction's effects. -/

namespace Sys2Proof.Machine

open Sys2Proof.Claims

/-- What no instruction changes, and that no instruction takes a charged cycle back: the total counter, the parameters
and the phase (R40, R6), the PPU's counters (R420), the button bytes (R473), and the cartridge but pattern RAM (R48). -/
structure InstrFrame (s t : State) : Prop where
  totalCycles : t.totalCycles = s.totalCycles
  params : t.params = s.params
  phase : t.phase = s.phase
  dot : t.ppu.dot = s.ppu.dot
  scanline : t.ppu.scanline = s.ppu.scanline
  buttons1 : t.pads.pad1.buttons = s.pads.pad1.buttons
  buttons2 : t.pads.pad2.buttons = s.pads.pad2.buttons
  cart : t.cart = { s.cart with chr := t.cart.chr }
  chrRom : s.cart.chrPages ≠ 0 → t.cart = s.cart
  cycles : s.cycles ≤ t.cycles

theorem InstrFrame.rfl {s : State} : InstrFrame s s :=
  ⟨Eq.refl _, Eq.refl _, Eq.refl _, Eq.refl _, Eq.refl _, Eq.refl _, Eq.refl _, Eq.refl _,
    fun _ => Eq.refl _, Nat.le_refl _⟩

theorem InstrFrame.trans {s t u : State} (h : InstrFrame s t) (h' : InstrFrame t u) : InstrFrame s u where
  totalCycles := h'.totalCycles.trans h.totalCycles
  params := h'.params.trans h.params
  phase := h'.phase.trans h.phase
  dot := h'.dot.trans h.dot
  scanline := h'.scanline.trans h.scanline
  buttons1 := h'.buttons1.trans h.buttons1
  buttons2 := h'.buttons2.trans h.buttons2
  cart := by rw [h'.cart, h.cart]
  chrRom hpages := by
    have ht := h.chrRom hpages
    exact (h'.chrRom (by rwa [ht])).trans ht
  cycles := h.cycles.trans h'.cycles

/-- The PPU's registers are not among its counters (R420). -/
theorem InstrFrame.ofPpu {s : State} {ppu : Ppu} (hdot : ppu.dot = s.ppu.dot) (hline : ppu.scanline = s.ppu.scanline) :
    InstrFrame s (s.setPpu ppu) :=
  ⟨Eq.refl _, Eq.refl _, Eq.refl _, hdot, hline, Eq.refl _, Eq.refl _, Eq.refl _,
    fun _ => Eq.refl _, Nat.le_refl _⟩

theorem InstrFrame.ofCharge (s : State) (n : Nat) : InstrFrame s (s.charge n) :=
  ⟨Eq.refl _, Eq.refl _, Eq.refl _, Eq.refl _, Eq.refl _, Eq.refl _, Eq.refl _, Eq.refl _, fun _ => Eq.refl _,
    Nat.le_add_right _ _⟩

theorem memRead_instrFrame (a : Addr) (s : State) : InstrFrame s (memRead a s).2 := by
  have heffect := readTarget_effect (busDecode a) s
  have hframe := memRead_frame a s
  exact ⟨hframe.totalCycles, hframe.params, hframe.phase, congrArg (·.ppu.dot) heffect,
    congrArg (·.ppu.scanline) heffect, congrArg (·.pads.pad1.buttons) heffect, congrArg (·.pads.pad2.buttons) heffect,
    by rw [hframe.cart], fun _ => hframe.cart, hframe.cycles.ge⟩

theorem dmaCopy_instrFrame (page : Byte) (n i : Nat) (s : State) : InstrFrame s (dmaCopy page n i s) := by
  induction n generalizing i s with
  | zero => exact .rfl
  | succ n ih =>
    rw [dmaCopy_succ]
    refine ((memRead_instrFrame (w16 page (BitVec.ofNat 8 i)) s).trans ?_).trans (ih _ _)
    exact .ofPpu rfl rfl

theorem ppuWrite_instrFrame (a : PpuAddr) (b : Byte) (s : State) : InstrFrame s (ppuWrite a b s) := by
  unfold ppuWrite
  split
  · split
    next hram =>
      exact ⟨rfl, rfl, rfl, rfl, rfl, rfl, rfl, rfl, fun hpages => absurd hram hpages, Nat.le_refl _⟩
    next => exact .rfl
  · exact .ofPpu rfl rfl
  · exact .ofPpu rfl rfl

theorem ppuRegWrite_instrFrame (r : Nat) (b : Byte) (s : State) : InstrFrame s (ppuRegWrite r b s) := by
  unfold ppuRegWrite
  split
  · exact .ofPpu rfl rfl
  · exact .ofPpu rfl rfl
  · exact .ofPpu rfl rfl
  · exact .ofPpu rfl rfl
  · unfold writeScroll; split <;> exact .ofPpu rfl rfl
  · unfold writeAddr; split <;> exact .ofPpu rfl rfl
  · exact (ppuWrite_instrFrame _ b s).trans (.ofPpu rfl rfl)
  · exact .rfl

theorem writeTarget_instrFrame (tgt : BusTarget) (b : Byte) (s : State) : InstrFrame s (writeTarget tgt b s) := by
  cases tgt with
  | ram k => exact ⟨rfl, rfl, rfl, rfl, rfl, rfl, rfl, rfl, fun _ => rfl, Nat.le_refl _⟩
  | ppuReg r => exact ppuRegWrite_instrFrame r b s
  | oamDma => exact (dmaCopy_instrFrame b 256 0 s).trans (.ofCharge _ dmaStall)
  | pad1 =>
    simp only [writeTarget, writeStrobe]
    split <;> exact ⟨rfl, rfl, rfl, rfl, rfl, rfl, rfl, rfl, fun _ => rfl, Nat.le_refl _⟩
  | prgRam k =>
    simp only [writeTarget]
    split
    · exact ⟨rfl, rfl, rfl, rfl, rfl, rfl, rfl, rfl, fun _ => rfl, Nat.le_refl _⟩
    · exact .rfl
  | pad2 | nothing | prgRom _ _ => exact .rfl

theorem memWrite_instrFrame (a : Addr) (b : Byte) (s : State) : InstrFrame s (memWrite a b s) :=
  writeTarget_instrFrame _ b s

/-- The frame of every instruction, and that its row's cycles are charged. -/
theorem Effects.instrFrame {es : Addr → Prop} {s t : State} {n : Nat} (h : Effects es s n t) :
    InstrFrame s t ∧ s.cycles + n ≤ t.cycles := by
  induction h with
  | start => exact ⟨.rfl, Nat.le_refl _⟩
  | registers _ a x y sp pc p halted nmi irq ih => exact ⟨{ ih.1 with }, ih.2⟩
  | @read n t h a ih =>
    have hread := memRead_instrFrame a t
    exact ⟨ih.1.trans hread, ih.2.trans hread.cycles⟩
  | @write n t h e he b ih =>
    have hwrite := memWrite_instrFrame e b t
    exact ⟨ih.1.trans hwrite, ih.2.trans hwrite.cycles⟩
  | @charge n t h k ih =>
    exact ⟨ih.1.trans (.ofCharge t k), by rw [State.charge_cycles]; omega⟩

/-- An instruction keeps the session invariant. -/
theorem Effects.ok {es : Addr → Prop} {s t : State} {n : Nat} (h : Effects es s n t) (hs : s.ok = true) :
    t.ok = true := by
  induction h with
  | start => exact hs
  | registers _ a x y sp pc p halted nmi irq ih => exact ih
  | read _ a ih => exact memRead_ok a ih
  | write _ he b ih => exact memWrite_ok _ b ih
  | charge _ k ih => exact ih

/-- What a CPU step does before the end of the step: at least one cycle is charged (R191 to R196, R415). -/
theorem cpuStep_effects {s t : State} (h : cpuStep s = .next t) :
    ∃ n, 1 ≤ n ∧ Effects (fun _ => True) s n t := by
  obtain ⟨-, hc⟩ | ⟨-, -, hc⟩ | ⟨-, -, -, -, hc⟩ | ⟨-, -, -, hc⟩ := cpuStep_cases s
  · rw [hc] at h
    obtain rfl := Host.Outcome.next.inj h
    exact ⟨_, (by decide : 1 ≤ 0 + 1), Effects.start.charge 1⟩
  · rw [hc] at h
    obtain ⟨n, hn, he⟩ := exec_effects (i := .nmi) h
    exact ⟨n, hn, he.mono fun _ _ => trivial⟩
  · rw [hc] at h
    obtain ⟨n, hn, he⟩ := exec_effects (i := .irq) h
    exact ⟨n, hn, he.mono fun _ _ => trivial⟩
  · rw [hc] at h
    obtain ⟨n, hn, he⟩ := exec_effects h
    exact ⟨_, by omega, Effects.start.fetchInstr.trans (he.mono fun _ _ => trivial)⟩

/-- A step that answers: its effects with the step's counter at 0, then the end of the step (R190, R202). -/
theorem step_effects {s t : State} (h : step s = .next t) :
    s.phase = .running ∧ ∃ n u, 1 ≤ n ∧ Effects (fun _ => True) (s.setCycles 0) n u ∧ t = endStep u := by
  obtain ⟨hphase, u, hcpu, ht⟩ := step_next h
  obtain ⟨n, hn, he⟩ := cpuStep_effects hcpu
  exact ⟨hphase, n, u, hn, he, ht⟩

/-- Settles O12: the invariant does not see the registers, and reads, writes, charges and ticks keep it. -/
theorem stepKeepsOk : Obligations.StepKeepsOk := by
  intro s t hs h
  obtain ⟨-, n, u, -, he, rfl⟩ := step_effects h
  have hu : u.ok = true := he.ok hs
  exact ppuTicks_ok _ hu

/-- Settles O17: instructions write pattern RAM at most, and ticks nothing of the cartridge. -/
theorem stepKeepsCartridge : Obligations.StepKeepsCartridge := by
  intro s t h
  obtain ⟨-, n, u, -, he, rfl⟩ := step_effects h
  obtain ⟨hframe, -⟩ := he.instrFrame
  rw [(endStep_frame u).cart]
  exact ⟨hframe.cart, hframe.chrRom⟩

/-- No step writes the button bytes (R473). -/
theorem step_buttons {s t : State} (h : step s = .next t) :
    t.pads.pad1.buttons = s.pads.pad1.buttons ∧ t.pads.pad2.buttons = s.pads.pad2.buttons := by
  obtain ⟨-, n, u, -, he, rfl⟩ := step_effects h
  obtain ⟨hframe, -⟩ := he.instrFrame
  rw [(endStep_frame u).pads]
  exact ⟨hframe.buttons1, hframe.buttons2⟩

/-- A step keeps the phase and the parameters. -/
theorem step_phase_params {s t : State} (h : step s = .next t) : t.phase = s.phase ∧ t.params = s.params := by
  obtain ⟨-, n, u, -, he, rfl⟩ := step_effects h
  obtain ⟨hframe, -⟩ := he.instrFrame
  rw [(endStep_frame u).phase, (endStep_frame u).params]
  exact ⟨hframe.phase, hframe.params⟩

/-- The answer of an instruction: the unstable group is refused under refuse, and nothing else stops (R10, R366). -/
theorem exec_answer (i : Instr) (s : State) :
    (∃ t, exec i s = .next t) ∧ (i.mnemonic.opClass ≠ .unstable ∨ s.params.unstableMode = .nmos) ∨
      exec i s = .refused .unstableOpcode ∧ i.mnemonic.opClass = .unstable ∧ s.params.unstableMode = .refuse := by
  have hunstable (t : State) (hi : i.mnemonic.opClass = .unstable) (hexec : exec i s = whenNmos s t) :
      (∃ t, exec i s = .next t) ∧ (i.mnemonic.opClass ≠ .unstable ∨ s.params.unstableMode = .nmos) ∨
        exec i s = .refused .unstableOpcode ∧ i.mnemonic.opClass = .unstable ∧ s.params.unstableMode = .refuse := by
    rw [hexec, whenNmos]
    cases hmode : s.params.unstableMode with
    | nmos => exact .inl ⟨⟨t, rfl⟩, .inr rfl⟩
    | refuse => exact .inr ⟨rfl, hi, rfl⟩
  cases i with
  | xaa _ | lxa _ | sha _ | shx _ | shy _ | tas _ => exact hunstable _ rfl rfl
  | nopU _ o => cases o <;> exact .inl ⟨⟨_, rfl⟩, .inl (by simp [Instr.mnemonic, Mnemonic.opClass])⟩
  | _ => exact .inl ⟨⟨_, rfl⟩, .inl (by simp [Instr.mnemonic, Mnemonic.opClass])⟩

end Sys2Proof.Machine
end

section
/-! PROOFS. When a step stops, and the phases of a session (R10, R30, R366, R400, R500). -/

namespace Sys2Proof.Machine

open Sys2Proof.Claims

/-- The seven unstable opcodes are those whose row is of the unstable class (R158, R366). -/
theorem unstable_iff (op : Byte) : (descriptor op).mnemonic.opClass = .unstable ↔ op ∈ unstableLine := by
  revert op; decide +kernel

/-- The fetched instruction is a well-formed one with bytes, of the row of the byte at pc (R195). -/
theorem fetchInstr_row (s : State) :
    encode (fetchInstr s).1 = (memRead s.pc s).1 ::
        [(fetchOperands (descriptor (memRead s.pc s).1).mode.operandBytes (fetchByte s).2).1.1,
          (fetchOperands (descriptor (memRead s.pc s).1).mode.operandBytes (fetchByte s).2).1.2].take
          (descriptor (memRead s.pc s).1).mode.operandBytes ∧
      (fetchInstr s).1.wf = true ∧ (fetchInstr s).1.fetchable = true ∧
      (fetchInstr s).1.mnemonic = (descriptor (memRead s.pc s).1).mnemonic ∧
      (fetchInstr s).1.mode = (descriptor (memRead s.pc s).1).mode :=
  instrOf_row _ _ _

/-- The mnemonic of the fetched instruction is that of the byte at pc (R195). -/
theorem fetchInstr_mnemonic (s : State) : (fetchInstr s).1.mnemonic = (descriptor (memRead s.pc s).1).mnemonic := by
  obtain ⟨-, -, -, hmn, -⟩ := fetchInstr_row s
  exact hmn

/-- The fetches change no parameter. -/
theorem fetchInstr_params (s : State) : (fetchInstr s).2.params = s.params :=
  (Effects.start (es := fun _ => True)).fetchInstr.instrFrame.1.params

/-- An instruction is refused exactly when it is of the unstable group and UNSTABLE_MODE = refuse (R366). -/
theorem exec_refused_iff (i : Instr) (s : State) (r : Refusal) :
    exec i s = .refused r ↔
      r = .unstableOpcode ∧ s.params.unstableMode = .refuse ∧ i.mnemonic.opClass = .unstable := by
  obtain ⟨⟨t, ht⟩, hstable⟩ | ⟨href, hclass, hmode⟩ := exec_answer i s
  · rw [ht]
    refine ⟨fun h => by simp at h, fun ⟨_, hmode, hclass⟩ => ?_⟩
    obtain hne | hnmos := hstable
    · exact absurd hclass hne
    · rw [hnmos] at hmode; cases hmode
  · rw [href]
    exact ⟨fun h => ⟨(Host.Outcome.refused.inj h).symm, hmode, hclass⟩, fun ⟨hr, _, _⟩ => by rw [hr]⟩

/-- No instruction faults (R10, R400). -/
theorem exec_ne_fault (i : Instr) (s : State) (r : Fault) : exec i s ≠ .fault r := by
  obtain ⟨⟨t, ht⟩, -⟩ | ⟨href, -, -⟩ := exec_answer i s
  · rw [ht]; simp
  · rw [href]; simp

/-- No CPU step faults (R10, R400). -/
theorem cpuStep_ne_fault (s : State) (r : Fault) : cpuStep s ≠ .fault r := by
  obtain ⟨-, hc⟩ | ⟨-, -, hc⟩ | ⟨-, -, -, -, hc⟩ | ⟨-, -, -, hc⟩ := cpuStep_cases s
  · rw [hc]; simp
  · rw [hc]; exact exec_ne_fault .nmi s r
  · rw [hc]; exact exec_ne_fault .irq s r
  · rw [hc]; exact exec_ne_fault _ _ r

/-- A CPU step is refused exactly when it runs an unstable opcode under refuse (R195, R366). -/
theorem cpuStep_refused_iff (s : State) (r : Refusal) :
    cpuStep s = .refused r ↔
      r = .unstableOpcode ∧ s.params.unstableMode = .refuse ∧ s.halted = false ∧ s.nmiPending = false ∧
        (s.irqPending = false ∨ s.p.i = true) ∧ (memRead s.pc s).1 ∈ unstableLine := by
  have hfetch : exec (fetchInstr s).1 (fetchInstr s).2 = .refused r ↔
      r = .unstableOpcode ∧ s.params.unstableMode = .refuse ∧ (memRead s.pc s).1 ∈ unstableLine := by
    rw [exec_refused_iff, fetchInstr_params, fetchInstr_mnemonic, unstable_iff]
  obtain ⟨hh, hc⟩ | ⟨hh, hn, hc⟩ | ⟨hh, hn, hq, hi, hc⟩ | ⟨hh, hn, hq, hc⟩ := cpuStep_cases s
  · simp [hc, hh]
  · simp [hc, hn, execNmi]
  · simp [hc, hq, hi, execIrq]
  · rw [hc, hfetch]
    simp [hh, hn, hq]

/-- Settles O15: a step ends as its CPU step does, which stops at an unstable instruction only. -/
theorem refusesOnlyUnstableOpcodes : Obligations.RefusesOnlyUnstableOpcodes := by
  constructor
  · intro s r h
    unfold step whenStarted at h
    split at h
    next => cases h
    next => cases h
    next =>
      cases hc : cpuStep (s.setCycles 0) with
      | next u => rw [hc] at h; cases h
      | fault q => exact cpuStep_ne_fault _ _ hc
      | refused q => rw [hc] at h; cases h
  · intro s r hphase
    have hcpu := cpuStep_refused_iff (s.setCycles 0) r
    rw [step_running hphase]
    refine Iff.trans ?_ hcpu
    cases cpuStep (s.setCycles 0) with
    | next u | fault q => simp [Result.map]
    | refused q => exact Iff.rfl

/-- A started session under nmos answers every step. -/
theorem step_answers_of_nmos {s : State} (hphase : s.phase = .running) (hmode : s.params.unstableMode = .nmos) :
    ∃ t, step s = .next t := by
  obtain ⟨hfault, hrefused⟩ := refusesOnlyUnstableOpcodes
  cases h : step s with
  | next t => exact ⟨t, rfl⟩
  | fault r => exact absurd h (hfault s r)
  | refused r =>
    obtain ⟨-, hrefuse, -⟩ := (hrefused s r hphase).mp h
    rw [hmode] at hrefuse
    cases hrefuse

/-- A run of a machine goes on from the state its first step answers. -/
theorem coreRun_succ {M : Host.Core} {s t : M.State} (h : M.step s = .next t) (n : Nat) :
    Host.Core.run M (n + 1) s = Host.Core.run M n t := by
  simp only [Host.Core.run, h]

/-- A run goes on from the state its first step answers. -/
theorem run_succ {s t : State} (h : step s = .next t) (n : Nat) :
    Host.Core.run core (n + 1) s = Host.Core.run core n t := coreRun_succ (M := core) h n

/-- Settles O14: by induction on the number of steps, each of which keeps the phase and the mode. -/
theorem runsForeverUnderNmos : Obligations.RunsForeverUnderNmos := by
  intro s hphase hmode n
  induction n generalizing s with
  | zero => exact ⟨s, rfl⟩
  | succ n ih =>
    obtain ⟨t, ht⟩ := step_answers_of_nmos hphase hmode
    obtain ⟨htphase, htparams⟩ := step_phase_params ht
    obtain ⟨u, hu⟩ := ih t (htphase.trans hphase) (by rw [htparams, hmode])
    exact ⟨u, (run_succ ht n).trans hu⟩

/-- The status byte, built of bits, as a number (R37). -/
theorem pack_eq_packed (p : Flags) (b : Bool) : p.pack b = packed p b := by
  obtain ⟨n, v, d, i, z, c⟩ := p
  revert n v d i z c b
  decide +kernel

/-- Unpacking a packed status byte gives the flags back (R37, R38). -/
theorem unpack_pack (p : Flags) (b : Bool) : Flags.unpack (p.pack b) = p := by
  obtain ⟨n, v, d, i, z, c⟩ := p
  revert n v d i z c b
  decide +kernel

/-- Settles O27: a status byte is eight bits, and each case of them evaluates. -/
theorem statusByteLayout : Obligations.StatusByteLayout :=
  ⟨fun p b => ⟨pack_eq_packed p b, unpack_pack p b⟩, fun _ => rfl⟩

/-- `start()` leaves a session that has never been reset where it is (R30, R502). -/
theorem start_phase (s : State) : (start s).phase = if s.phase = .poweredOn then .poweredOn else .running := by
  change s.phase.started = _
  cases s.phase <;> rfl

/-- A host input but a reset keeps the phase (R403, R437, R473). -/
theorem applyHost_phase {h : HostInput} (hreset : h ≠ .reset) (s : State) : (applyHost h s).phase = s.phase := by
  cases h with
  | buttons _ _ | irq _ | takeFrame => rfl
  | reset => exact absurd rfl hreset

/-- Settles O16: a step and a snapshot ask the phase first, and only `reset()` and `start()` write it. -/
theorem noRegisterReadBeforeReset : Obligations.NoRegisterReadBeforeReset := by
  refine ⟨fun s h => ?_, fun s h => ?_, fun s h => ?_, fun _ _ _ => rfl, fun _ => rfl, start_phase, fun s t h => ?_,
    fun _ s hreset => applyHost_phase hreset s⟩
  · simp only [step, traceSnapshot, whenStarted, h]; exact ⟨trivial, trivial⟩
  · simp only [step, traceSnapshot, whenStarted, h]; exact ⟨trivial, trivial⟩
  · rw [traceSnapshot, whenStarted_running h, pack_eq_packed]
  · have hphase := (step_next h).1
    exact ⟨hphase, (step_phase_params h).1.trans hphase⟩

end Sys2Proof.Machine
end

section
/-! PROOFS. The memory frame of an instruction, by induction over its effects (R85, R101, R103, R420). -/

namespace Sys2Proof.Machine

open Sys2Proof.Claims

/-- t holds the stored bytes of s, but at addresses that decode as one of es does; and if none of es is of
0x2000-0x5FFF, also its OAM, palette, nametable RAM and cartridge. -/
structure MemoryFrame (es : Addr → Prop) (s t : State) : Prop where
  stored : ∀ a : Addr, (∀ e, es e → busDecode a ≠ busDecode e) → peek t a = peek s a
  devices : (∀ e, es e → e.toNat < 0x2000 ∨ 0x6000 ≤ e.toNat) →
    t.ppu.oam = s.ppu.oam ∧ t.ppu.palette = s.ppu.palette ∧ t.ppu.ciram = s.ppu.ciram ∧ t.cart = s.cart

/-- What the stored bytes depend on (R72, R76, R77). -/
theorem peek_congr {s t : State} (hram : t.ram = s.ram) (hprgRam : t.prgRam = s.prgRam) (hparams : t.params = s.params)
    (hprg : t.cart.prg = s.cart.prg) (hpages : t.cart.prgPages = s.cart.prgPages) (a : Addr) : peek t a = peek s a := by
  simp only [peek, rom, hram, hprgRam, hparams, hprg, hpages]

/-- A read changes no stored byte (R80). -/
theorem peek_memRead (e : Addr) (s : State) (a : Addr) : peek (memRead e s).2 a = peek s a := by
  have h := memRead_frame e s
  exact peek_congr h.ram h.prgRam h.params (by rw [h.cart]) (by rw [h.cart]) a

/-- A read keeps OAM, palette and nametable RAM (R80). -/
theorem memRead_ppuStores (e : Addr) (s : State) :
    (memRead e s).2.ppu.oam = s.ppu.oam ∧ (memRead e s).2.ppu.palette = s.ppu.palette ∧
      (memRead e s).2.ppu.ciram = s.ppu.ciram := by
  have h := readTarget_effect (busDecode e) s
  exact ⟨congrArg (·.ppu.oam) h, congrArg (·.ppu.palette) h, congrArg (·.ppu.ciram) h⟩

/-- A write of a PPU register keeps RAM and PRG-RAM. -/
theorem ppuRegWrite_ram (r : Nat) (b : Byte) (s : State) :
    (ppuRegWrite r b s).ram = s.ram ∧ (ppuRegWrite r b s).prgRam = s.prgRam := by
  unfold ppuRegWrite
  split
  case h_7 =>
    simp only [writePpuData, ppuWrite]
    split
    · split <;> exact ⟨rfl, rfl⟩
    · exact ⟨rfl, rfl⟩
    · exact ⟨rfl, rfl⟩
  all_goals exact ⟨rfl, rfl⟩

/-- A write that reaches neither RAM nor PRG-RAM changes no stored byte. -/
theorem peek_memWrite_of_ram {e : Addr} {b : Byte} {s : State} (hram : (memWrite e b s).ram = s.ram)
    (hprgRam : (memWrite e b s).prgRam = s.prgRam) (a : Addr) : peek (memWrite e b s) a = peek s a := by
  have h := (memWrite_instrFrame e b s).cart
  exact peek_congr hram hprgRam (memWrite_params e b s) (by rw [h]) (by rw [h]) a

/-- A write changes the byte of the target its address decodes to and no other (R72, R76, R78). -/
theorem peek_memWrite {a e : Addr} (h : busDecode a ≠ busDecode e) (b : Byte) (s : State) :
    peek (memWrite e b s) a = peek s a := by
  by_cases hram : e.toNat < 0x2000
  · rw [memWrite_of_ram hram]
    simp only [peek]
    split
    next ha =>
      rw [busDecode_ram ha, busDecode_ram hram] at h
      exact congrArg some (Memory.read_write_other _ b fun hk => h (by rw [hk]))
    next => rfl
  by_cases hreg : e.toNat < 0x4000
  · have hkept := ppuRegWrite_ram (e.toNat % 8) b s
    rw [← memWrite_of_ppuReg (by omega) hreg] at hkept
    exact peek_memWrite_of_ram hkept.1 hkept.2 a
  by_cases hio : e.toNat < 0x6000
  · have hkept : (memWrite e b s).ram = s.ram ∧ (memWrite e b s).prgRam = s.prgRam := by
      simp only [memWrite, busDecode_io (by omega) hio, ioDecode]
      split
      · exact ⟨(dmaCopy_frame b 256 0 s).ram, (dmaCopy_frame b 256 0 s).prgRam⟩
      · exact ⟨rfl, rfl⟩
      · exact ⟨rfl, rfl⟩
      · exact ⟨rfl, rfl⟩
    exact peek_memWrite_of_ram hkept.1 hkept.2 a
  by_cases hwin : e.toNat < 0x8000
  · simp only [memWrite, busDecode_prgRam (by omega) hwin, writeTarget]
    cases hmode : s.params.prgRamMode with
    | stub => rfl
    | ram =>
      simp only [peek, State.setPrgRam_ram, State.setPrgRam_params, State.setPrgRam_prgRam, hmode]
      split
      next => rfl
      next =>
      split
      next => rfl
      next hlow =>
      split
      next ha =>
        rw [busDecode_prgRam (by omega) ha, busDecode_prgRam (by omega) hwin] at h
        exact congrArg some (Memory.read_write_other _ b fun hk => h (by rw [hk]))
      next => rfl
  · rw [memWrite_of_rom (by omega)]

/-- A write outside 0x2000-0x5FFF keeps the PPU and the cartridge. -/
theorem memWrite_ppu_cart {e : Addr} (h : e.toNat < 0x2000 ∨ 0x6000 ≤ e.toNat) (b : Byte) (s : State) :
    (memWrite e b s).ppu = s.ppu ∧ (memWrite e b s).cart = s.cart := by
  obtain hram | hhigh := h
  · rw [memWrite_of_ram hram]; exact ⟨rfl, rfl⟩
  · by_cases hwin : e.toNat < 0x8000
    · simp only [memWrite, busDecode_prgRam hhigh hwin, writeTarget]
      split <;> exact ⟨rfl, rfl⟩
    · rw [memWrite_of_rom (by omega)]; exact ⟨rfl, rfl⟩

/-- The memory frame of a sequence of effects. -/
theorem Effects.memoryFrame {es : Addr → Prop} {s t : State} {n : Nat} (h : Effects es s n t) :
    MemoryFrame es s t := by
  induction h with
  | start => exact ⟨fun _ _ => rfl, fun _ => ⟨rfl, rfl, rfl, rfl⟩⟩
  | registers _ a x y sp pc p halted nmi irq ih => exact ⟨ih.stored, ih.devices⟩
  | @read n t h e ih =>
    refine ⟨fun a ha => (peek_memRead e t a).trans (ih.stored a ha), fun hes => ?_⟩
    obtain ⟨ho, hp, hc⟩ := memRead_ppuStores e t
    rw [ho, hp, hc, memRead_cart]
    exact ih.devices hes
  | @write n t h e he b ih =>
    refine ⟨fun a ha => (peek_memWrite (ha e he) b t).trans (ih.stored a ha), fun hes => ?_⟩
    obtain ⟨hppu, hcart⟩ := memWrite_ppu_cart (hes e he) b t
    rw [hppu, hcart]
    exact ih.devices hes
  | charge _ k ih => exact ⟨ih.stored, ih.devices⟩

/-- Settles O22: an instruction writes at the addresses `storedAt` computes from the state before, and a write reaches
one target. -/
theorem instructionMemoryFrame : Obligations.InstructionMemoryFrame := by
  intro i s t _ h
  obtain ⟨n, -, he⟩ := exec_effects h
  exact ⟨he.memoryFrame.stored, he.memoryFrame.devices⟩

end Sys2Proof.Machine
end

section
/-! PROOFS. The register and flag frame of an instruction (R30 to R35, R42, R402, R403): what each shared operation
leaves, then each group of instructions against the lists of writers. -/

namespace Sys2Proof.Machine

open Sys2Proof.Claims

/-- Loading an operand writes no register (R80). -/
theorem loadOperand_frame (m : Mnemonic) (o : Operand) (s : State) : WriteFrame s (loadOperand m o s).2 := by
  simp only [loadOperand, resolve_snd]
  exact (readLoc_frame _ s).toWrite.charge _

@[simp] theorem loadOperand_a (m : Mnemonic) (o : Operand) (s : State) : (loadOperand m o s).2.a = s.a :=
  (loadOperand_frame m o s).a

@[simp] theorem loadOperand_x (m : Mnemonic) (o : Operand) (s : State) : (loadOperand m o s).2.x = s.x :=
  (loadOperand_frame m o s).x

@[simp] theorem loadOperand_y (m : Mnemonic) (o : Operand) (s : State) : (loadOperand m o s).2.y = s.y :=
  (loadOperand_frame m o s).y

@[simp] theorem loadOperand_sp (m : Mnemonic) (o : Operand) (s : State) : (loadOperand m o s).2.sp = s.sp :=
  (loadOperand_frame m o s).sp

@[simp] theorem loadOperand_pc (m : Mnemonic) (o : Operand) (s : State) : (loadOperand m o s).2.pc = s.pc :=
  (loadOperand_frame m o s).pc

@[simp] theorem loadOperand_p (m : Mnemonic) (o : Operand) (s : State) : (loadOperand m o s).2.p = s.p :=
  (loadOperand_frame m o s).p

@[simp] theorem loadOperand_totalCycles (m : Mnemonic) (o : Operand) (s : State) :
    (loadOperand m o s).2.totalCycles = s.totalCycles :=
  (loadOperand_frame m o s).totalCycles

@[simp] theorem loadOperand_halted (m : Mnemonic) (o : Operand) (s : State) : (loadOperand m o s).2.halted = s.halted :=
  (loadOperand_frame m o s).halted

@[simp] theorem loadOperand_nmiPending (m : Mnemonic) (o : Operand) (s : State) :
    (loadOperand m o s).2.nmiPending = s.nmiPending :=
  (loadOperand_frame m o s).nmiPending

@[simp] theorem loadOperand_irqPending (m : Mnemonic) (o : Operand) (s : State) :
    (loadOperand m o s).2.irqPending = s.irqPending :=
  (loadOperand_frame m o s).irqPending

@[simp] theorem loadOperand_params (m : Mnemonic) (o : Operand) (s : State) : (loadOperand m o s).2.params = s.params :=
  (loadOperand_frame m o s).params

@[simp] theorem loadOperand_phase (m : Mnemonic) (o : Operand) (s : State) : (loadOperand m o s).2.phase = s.phase :=
  (loadOperand_frame m o s).phase

/-- Writing a result back writes no register but A, and A in accumulator mode alone (R163). -/
theorem writeOf_frame {o : Operand} {ea : Addr} {b : Byte} {s t : State} (h : WriteFrame s t) :
    ∃ a, WriteFrame (s.setA a) (writeOf o ea b t) ∧ (o.mode ≠ .acc → a = s.a) := by
  cases o with
  | acc => exact ⟨b, { h with a := rfl }, fun hacc => absurd rfl hacc⟩
  | imm _ => exact ⟨s.a, { h with }, fun _ => rfl⟩
  | zp _ | zpx _ | zpy _ | abs _ | abx _ | aby _ | izx _ | izy _ =>
    exact ⟨s.a, { h.trans (memWrite_frame ea b t) with }, fun _ => rfl⟩

/-- Storing to an operand writes no register but A, and A in accumulator mode alone (R85). -/
theorem storeOperand_frame (m : Mnemonic) (o : Operand) (b : Byte) (s : State) :
    ∃ a, WriteFrame (s.setA a) (storeOperand m o b s) ∧ (o.mode ≠ .acc → a = s.a) := by
  obtain ⟨a, hframe, ha⟩ := writeOf_frame (o := o) (ea := eaOf o s) (b := b) (WriteFrame.rfl (s := s))
  simp only [storeOperand, resolve_snd, writeLoc_resolve]
  exact ⟨a, hframe.charge _, ha⟩

/-- Modifying an operand writes no register but A, and A in accumulator mode alone (R85). -/
theorem modifyOperand_frame (m : Mnemonic) (o : Operand) (f : Byte → Byte) (s : State) :
    ∃ a, WriteFrame (s.setA a) (modifyOperand m o f s).2 ∧ (o.mode ≠ .acc → a = s.a) := by
  obtain ⟨a, hframe, ha⟩ := writeOf_frame (o := o) (ea := eaOf o s) (b := f (readLoc (resolve o s).1 s).1)
    (readLoc_frame (resolve o s).1 s).toWrite
  simp only [modifyOperand, resolve_snd, writeLoc_resolve]
  exact ⟨a, hframe.charge _, ha⟩

@[simp] theorem modifyOperand_x (m : Mnemonic) (o : Operand) (f : Byte → Byte) (s : State) :
    (modifyOperand m o f s).2.x = s.x := by
  obtain ⟨_, h, -⟩ := modifyOperand_frame m o f s
  exact h.x

@[simp] theorem modifyOperand_y (m : Mnemonic) (o : Operand) (f : Byte → Byte) (s : State) :
    (modifyOperand m o f s).2.y = s.y := by
  obtain ⟨_, h, -⟩ := modifyOperand_frame m o f s
  exact h.y

@[simp] theorem modifyOperand_sp (m : Mnemonic) (o : Operand) (f : Byte → Byte) (s : State) :
    (modifyOperand m o f s).2.sp = s.sp := by
  obtain ⟨_, h, -⟩ := modifyOperand_frame m o f s
  exact h.sp

@[simp] theorem modifyOperand_pc (m : Mnemonic) (o : Operand) (f : Byte → Byte) (s : State) :
    (modifyOperand m o f s).2.pc = s.pc := by
  obtain ⟨_, h, -⟩ := modifyOperand_frame m o f s
  exact h.pc

@[simp] theorem modifyOperand_totalCycles (m : Mnemonic) (o : Operand) (f : Byte → Byte) (s : State) :
    (modifyOperand m o f s).2.totalCycles = s.totalCycles := by
  obtain ⟨_, h, -⟩ := modifyOperand_frame m o f s
  exact h.totalCycles

@[simp] theorem modifyOperand_halted (m : Mnemonic) (o : Operand) (f : Byte → Byte) (s : State) :
    (modifyOperand m o f s).2.halted = s.halted := by
  obtain ⟨_, h, -⟩ := modifyOperand_frame m o f s
  exact h.halted

@[simp] theorem modifyOperand_nmiPending (m : Mnemonic) (o : Operand) (f : Byte → Byte) (s : State) :
    (modifyOperand m o f s).2.nmiPending = s.nmiPending := by
  obtain ⟨_, h, -⟩ := modifyOperand_frame m o f s
  exact h.nmiPending

@[simp] theorem modifyOperand_irqPending (m : Mnemonic) (o : Operand) (f : Byte → Byte) (s : State) :
    (modifyOperand m o f s).2.irqPending = s.irqPending := by
  obtain ⟨_, h, -⟩ := modifyOperand_frame m o f s
  exact h.irqPending

@[simp] theorem modifyOperand_params (m : Mnemonic) (o : Operand) (f : Byte → Byte) (s : State) :
    (modifyOperand m o f s).2.params = s.params := by
  obtain ⟨_, h, -⟩ := modifyOperand_frame m o f s
  exact h.params

@[simp] theorem modifyOperand_phase (m : Mnemonic) (o : Operand) (f : Byte → Byte) (s : State) :
    (modifyOperand m o f s).2.phase = s.phase := by
  obtain ⟨_, h, -⟩ := modifyOperand_frame m o f s
  exact h.phase

theorem modifyOperand_a {o : Operand} (h : o.mode ≠ .acc) (m : Mnemonic) (f : Byte → Byte) (s : State) :
    (modifyOperand m o f s).2.a = s.a := by
  obtain ⟨a, hframe, ha⟩ := modifyOperand_frame m o f s
  exact hframe.a.trans (ha h)

/-- The store of the unstable group writes no register (R369 to R372). -/
theorem storeUnderHigh_frame (m : Mnemonic) (o : Operand) (b : Byte) (s : State) :
    WriteFrame s (storeUnderHigh m o b s) := by
  cases o with
  | acc | imm _ => exact WriteFrame.rfl.charge _
  | zp _ | zpx _ | zpy _ | abs _ | abx _ | aby _ | izx _ | izy _ =>
    rw [storeUnderHigh_of_memory m (by simp) (by simp)]
    exact (memWrite_frame _ _ s).charge _

/-- A branch writes pc alone, beside the cycles (R315). -/
theorem branch_frame (m : Mnemonic) (cond : Bool) (disp : Byte) (s : State) :
    ∃ pc n, branch m cond disp s = (s.charge n).setPc pc := by
  unfold branch
  cases cond with
  | false => exact ⟨s.pc, _, rfl⟩
  | true => exact ⟨_, baseCycles m .rel + _, congrArg (State.setPc · _) (congrArg s.setCycles (Nat.add_assoc _ _ _))⟩

/-- What `Obligations.InstructionRegisterFrame` says of one instruction. -/
def RegisterFrame (i : Instr) (s t : State) : Prop :=
  (i.mnemonic ∉ [.lda, .txa, .tya, .adc, .sbc, .and, .ora, .eor, .pla, .lax, .sbcU, .isb, .slo, .rla, .sre, .rra, .anc,
    .alr, .arr, .las, .xaa, .lxa] → i.mode ≠ .acc → t.a = s.a) ∧
  (i.mnemonic ∉ [.ldx, .tax, .tsx, .inx, .dex, .lax, .axs, .las, .lxa] → t.x = s.x) ∧
  (i.mnemonic ∉ [.ldy, .tay, .iny, .dey] → t.y = s.y) ∧
  (i.mnemonic ∉ [.txs, .pha, .php, .pla, .plp, .jsr, .rts, .rti, .brk, .nmi, .irq, .las, .tas] → t.sp = s.sp) ∧
  (i.mnemonic ∉ [.jmp, .jsr, .rts, .rti, .brk, .nmi, .irq, .bpl, .bmi, .bvc, .bvs, .bcc, .bcs, .bne, .beq] →
    t.pc = s.pc) ∧
  (i.mnemonic ∉ [.lda, .ldx, .ldy, .tax, .tay, .txa, .tya, .tsx, .adc, .sbc, .and, .ora, .eor, .bit, .cmp, .cpx, .cpy,
    .inc, .dec, .inx, .iny, .dex, .dey, .asl, .lsr, .rol, .ror, .pla, .plp, .rti, .lax, .sbcU, .dcp, .isb, .slo, .rla,
    .sre, .rra, .anc, .alr, .arr, .axs, .las, .xaa, .lxa] → t.p.n = s.p.n ∧ t.p.z = s.p.z) ∧
  (i.mnemonic ∉ [.adc, .sbc, .bit, .clv, .plp, .rti, .rra, .isb, .sbcU, .arr] → t.p.v = s.p.v) ∧
  (i.mnemonic ∉ [.sed, .cld, .plp, .rti] → t.p.d = s.p.d) ∧
  (i.mnemonic ∉ [.sei, .cli, .plp, .rti, .brk, .nmi, .irq] → t.p.i = s.p.i) ∧
  (i.mnemonic ∉ [.adc, .sbc, .cmp, .cpx, .cpy, .asl, .lsr, .rol, .ror, .clc, .sec, .plp, .rti, .slo, .rla, .sre, .rra,
    .dcp, .isb, .sbcU, .anc, .alr, .arr, .axs] → t.p.c = s.p.c) ∧
  (i.mnemonic ≠ .jam → t.halted = s.halted) ∧ (i.mnemonic ≠ .nmi → t.nmiPending = s.nmiPending) ∧
  (i.mnemonic ≠ .irq → t.irqPending = s.irqPending) ∧ t.totalCycles = s.totalCycles ∧ t.params = s.params ∧
  t.phase = s.phase

variable {i : Instr} {s t u : State}

theorem RegisterFrame.trans (h : RegisterFrame i s t) (h' : RegisterFrame i t u) : RegisterFrame i s u := by
  obtain ⟨a, x, y, sp, pc, nz, v, d, int, c, halted, nmi, irq, total, params, phase⟩ := h
  obtain ⟨a', x', y', sp', pc', nz', v', d', int', c', halted', nmi', irq', total', params', phase'⟩ := h'
  exact ⟨fun hm hacc => (a' hm hacc).trans (a hm hacc), fun hm => (x' hm).trans (x hm), fun hm => (y' hm).trans (y hm),
    fun hm => (sp' hm).trans (sp hm), fun hm => (pc' hm).trans (pc hm),
    fun hm => ⟨(nz' hm).1.trans (nz hm).1, (nz' hm).2.trans (nz hm).2⟩, fun hm => (v' hm).trans (v hm),
    fun hm => (d' hm).trans (d hm), fun hm => (int' hm).trans (int hm), fun hm => (c' hm).trans (c hm),
    fun hm => (halted' hm).trans (halted hm), fun hm => (nmi' hm).trans (nmi hm), fun hm => (irq' hm).trans (irq hm),
    total'.trans total, params'.trans params, phase'.trans phase⟩

/-- A bus access writes no register, whatever the instruction (R80). -/
theorem WriteFrame.registerFrame (h : WriteFrame s t) : RegisterFrame i s t :=
  ⟨fun _ _ => h.a, fun _ => h.x, fun _ => h.y, fun _ => h.sp, fun _ => h.pc,
    fun _ => by rw [h.p]; exact ⟨Eq.refl _, Eq.refl _⟩,
    fun _ => by rw [h.p], fun _ => by rw [h.p], fun _ => by rw [h.p], fun _ => by rw [h.p], fun _ => h.halted,
    fun _ => h.nmiPending, fun _ => h.irqPending, h.totalCycles, h.params, h.phase⟩

/-- A write to an operand may be one to A, in accumulator mode (R144, R163). -/
theorem registerFrame_of_operand (h : ∃ a, WriteFrame (s.setA a) t ∧ (i.mode ≠ .acc → a = s.a)) :
    RegisterFrame i s t := by
  obtain ⟨a, hframe, ha⟩ := h
  have hset : RegisterFrame i s (s.setA a) :=
    ⟨fun _ hacc => ha hacc, fun _ => rfl, fun _ => rfl, fun _ => rfl, fun _ => rfl, fun _ => ⟨rfl, rfl⟩, fun _ => rfl,
      fun _ => rfl, fun _ => rfl, fun _ => rfl, fun _ => rfl, fun _ => rfl, fun _ => rfl, rfl, rfl, rfl⟩
  exact hset.trans hframe.registerFrame

/-- Each instruction's own updates are of the registers, flags and lines whose rules name it as a writer. -/
theorem exec_registerFrame (h : exec i s = .next t) : RegisterFrame i s t := by
  cases i with
  | lda _ | ldx _ | ldy _ | lax _ | and _ | ora _ | eor _ | las _ =>
    obtain rfl := Host.Outcome.next.inj h
    simp [RegisterFrame, Instr.mnemonic, State.loadA, State.loadX, State.loadY, State.loadAX, Flags.setNZ]
  | adc _ | sbc _ | sbcU _ =>
    obtain rfl := Host.Outcome.next.inj h
    simp [RegisterFrame, Instr.mnemonic, State.addToA, Flags.setNZ, Flags.ofAdd]
  | bit _ | cmp _ | cpx _ | cpy _ | axs _ =>
    obtain rfl := Host.Outcome.next.inj h
    simp [RegisterFrame, Instr.mnemonic, compareWith, Flags.bitTest, Flags.compare]
  | anc _ _ | alr _ | arr _ =>
    obtain rfl := Host.Outcome.next.inj h
    simp [RegisterFrame, Instr.mnemonic, State.loadA, Flags.setNZ, Flags.ofShift]
  | sta o | stx o | sty o | sax o =>
    obtain rfl := Host.Outcome.next.inj h
    exact registerFrame_of_operand (storeOperand_frame _ o _ s)
  | inc o | dec o | dcp o =>
    obtain rfl := Host.Outcome.next.inj h
    simp +contextual [RegisterFrame, Instr.mnemonic, Instr.mode, modifyNZ, modifyOperand_a, modifyOperand_p,
      Flags.setNZ,
      Flags.compare]
  | asl o | lsr o | rol o | ror o =>
    obtain rfl := Host.Outcome.next.inj h
    simp +contextual [RegisterFrame, Instr.mnemonic, Instr.mode, shiftOperand, modifyOperand_a, modifyOperand_p,
      Flags.setNZ, Flags.ofShift]
  | slo o | rla o | sre o | rra o =>
    obtain rfl := Host.Outcome.next.inj h
    simp [RegisterFrame, Instr.mnemonic, shiftMemory, modifyOperand_p, State.loadA, State.addToA, Flags.setNZ,
      Flags.ofAdd]
  | isb o =>
    obtain rfl := Host.Outcome.next.inj h
    simp [RegisterFrame, Instr.mnemonic, modifyOperand_p, State.addToA, Flags.setNZ, Flags.ofAdd]
  | nopU _ o =>
    cases o with
    | none =>
      obtain rfl := Host.Outcome.next.inj h
      exact (WriteFrame.rfl.charge _).registerFrame
    | some o =>
      obtain rfl := Host.Outcome.next.inj h
      exact (loadOperand_frame _ o s).registerFrame
  | xaa b | lxa b =>
    obtain ⟨-, rfl⟩ := whenNmos_next h
    simp [RegisterFrame, Instr.mnemonic, State.loadA, State.loadAX, Flags.setNZ]
  | sha _ | shx _ | shy _ =>
    obtain ⟨-, rfl⟩ := whenNmos_next h
    exact (storeUnderHigh_frame _ _ _ s).registerFrame
  | tas a =>
    obtain ⟨-, rfl⟩ := whenNmos_next h
    have hsp : RegisterFrame (.tas a) s (s.setSp (s.a &&& s.x)) := by simp [RegisterFrame, Instr.mnemonic]
    exact hsp.trans (storeUnderHigh_frame _ _ _ _).registerFrame
  | tax | tay | txa | tya | tsx | txs | inx | iny | dex | dey =>
    obtain rfl := Host.Outcome.next.inj h
    simp [RegisterFrame, Instr.mnemonic, chargeBase, State.loadA, State.loadX, State.loadY, Flags.setNZ]
  | clc | sec | cli | sei | cld | sed | clv | nop =>
    obtain rfl := Host.Outcome.next.inj h
    simp [RegisterFrame, Instr.mnemonic, chargeBase]
  | jam _ =>
    obtain rfl := Host.Outcome.next.inj h
    simp [RegisterFrame, Instr.mnemonic, chargeBase, halt]
  | pha | php | pla | plp =>
    obtain rfl := Host.Outcome.next.inj h
    simp [RegisterFrame, Instr.mnemonic, chargeBase, push_eq, pull_eq, State.loadA, Flags.setNZ]
  | jmp target =>
    obtain rfl := Host.Outcome.next.inj h
    have htarget : WriteFrame s (jumpTarget target s).2 := by
      cases target with
      | abs a => exact .rfl
      | ind a => exact (read16Page_frame a s).toWrite
    exact htarget.registerFrame.trans (by simp [RegisterFrame, Instr.mnemonic, chargeBase])
  | jsr _ | rts | rti =>
    obtain rfl := Host.Outcome.next.inj h
    simp [RegisterFrame, Instr.mnemonic, chargeBase, push16_eq, pull16_eq, returnFromInterrupt_eq]
  | brk | nmi | irq =>
    obtain rfl := Host.Outcome.next.inj h
    simp [RegisterFrame, Instr.mnemonic, chargeBase, enterInterrupt_eq, irqVector, nmiVector]
  | bpl d | bmi d | bvc d | bvs d | bcc d | bcs d | bne d | beq d =>
    obtain rfl := Host.Outcome.next.inj h
    obtain ⟨pc, n, hbranch⟩ := branch_frame _ _ d s
    rw [hbranch]
    simp [RegisterFrame, Instr.mnemonic]

/-- Settles O23: bus accesses write no register, and each rule's own updates are in the lists of writers. -/
theorem instructionRegisterFrame : Obligations.InstructionRegisterFrame := fun _ _ _ _ h => exec_registerFrame h

end Sys2Proof.Machine
end

section
/-! PROOFS. The stack, the interrupt entries and the returns (R43 to R45, R300 to R303, R312 to R314, R405 to R409). -/

namespace Sys2Proof.Machine

open Sys2Proof.Claims

/-- `Push(v)` in the terms of the statements (R43). -/
theorem push_eq_stackCell (b : Byte) (s : State) :
    push b s = { s with ram := s.ram.write (stackCell s.sp) b, sp := s.sp - 1 } := push_eq b s

/-- `Pull()` in the terms of the statements (R44). -/
theorem pull_eq_stackCell (s : State) : pull s = (s.ram.read (stackCell (s.sp + 1)), { s with sp := s.sp + 1 }) :=
  pull_eq s

/-- PLA (R302). -/
theorem exec_pla (s : State) :
    exec .pla s = .next { s with
      a := s.ram.read (stackCell (s.sp + 1)), sp := s.sp + 1, p := nz s.p (s.ram.read (stackCell (s.sp + 1)))
      cycles := s.cycles + 4 } := by
  simp only [exec, execPla, pull_eq_stackCell, State.loadA_eq]
  rfl

/-- PLP (R303). -/
theorem exec_plp (s : State) :
    exec .plp s = .next { s with
      p := Flags.unpack (s.ram.read (stackCell (s.sp + 1))), sp := s.sp + 1, cycles := s.cycles + 4 } := by
  simp only [exec, execPlp, pull_eq_stackCell]
  rfl

/-- Settles O36: a push is one write of page 1 and a pull one read of it. -/
theorem pushesAndPulls : Obligations.PushesAndPulls := by
  have hphp := implied_of_charged (op := 0x08) (i := .php) (m := .php) (eff := fun s => push (s.p.pack true) s) rfl
    fun _ => rfl
  have hpha := implied_of_charged (op := 0x48) (i := .pha) (m := .pha) (eff := fun s => push s.a s) rfl fun _ => rfl
  simp only [push_eq_stackCell, pack_eq_packed] at hphp hpha
  exact ⟨hpha, hphp, ⟨rfl, exec_pla⟩, ⟨rfl, exec_plp⟩⟩

/-- Taking an interrupt in the terms of the statements (R405, R314). -/
theorem enterInterrupt_eq_entered {vec : Addr} (h : 0x8000 ≤ vec.toNat) (h' : 0x8000 ≤ (vec + 1).toNat) (ret : Addr)
    (brk : Bool) (s : State) : enterInterrupt vec ret brk s = entered vec ret brk s := by
  rw [enterInterrupt_eq h h', romByte_eq h, romByte_eq h', pack_eq_packed]
  rfl

/-- The NMI entry (R406). -/
theorem exec_nmi (s : State) :
    exec .nmi s = .next (entered 0xFFFA s.pc false { s with nmiPending := false, cycles := s.cycles + 7 }) := by
  simp only [exec, execNmi, enterInterrupt_eq_entered (vec := nmiVector) (by decide) (by decide)]
  rfl

/-- The IRQ entry (R407). -/
theorem exec_irq (s : State) :
    exec .irq s = .next (entered 0xFFFE s.pc false { s with irqPending := false, cycles := s.cycles + 7 }) := by
  simp only [exec, execIrq, enterInterrupt_eq_entered (vec := irqVector) (by decide) (by decide)]
  rfl

/-- BRK (R314). -/
theorem exec_brk (s : State) :
    exec .brk s = .next (entered 0xFFFE (s.pc + 1) true { s with cycles := s.cycles + 7 }) := by
  simp only [exec, execBrk, enterInterrupt_eq_entered (vec := irqVector) (by decide) (by decide)]
  rfl

/-- RTI (R313). -/
theorem exec_rti (s : State) :
    exec .rti s = .next { s with
      p := Flags.unpack (s.ram.read (stackCell (s.sp + 1)))
      pc := w16 (s.ram.read (stackCell (s.sp + 3))) (s.ram.read (stackCell (s.sp + 2)))
      sp := s.sp + 3, cycles := s.cycles + 6 } := by
  simp only [exec, execRti, returnFromInterrupt_eq]
  rfl

/-- Settles O39: each clears its line and takes the interrupt through its vector, which lies in program ROM. -/
theorem hardwareInterruptEntries : Obligations.HardwareInterruptEntries := ⟨exec_nmi, exec_irq⟩

/-- Settles O38: BRK takes an interrupt past its operand byte, and RTI pulls three bytes. -/
theorem breakAndReturnFromInterrupt : Obligations.BreakAndReturnFromInterrupt := ⟨⟨rfl, exec_brk⟩, ⟨rfl, exec_rti⟩⟩

/-- Two stack slots are one cell exactly if their SP is the same (R33). -/
theorem stackCell_inj {a b : Byte} : stackCell a = stackCell b ↔ a = b := by
  simp only [stackCell]
  rw [Nat.add_left_cancel_iff, BitVec.toNat_inj]

/-- RTS finds the two bytes JSR pushed (R311, R312). -/
theorem rts_undoes_jsr {s t t' u : State} (hwf : s.ram.wf = true) (hram : t'.ram = t.ram) (hsp : t'.sp = t.sp)
    {a : Addr}
    (h : exec (.jsr a) s = .next t) (h' : exec .rts t' = .next u) : u.pc = s.pc ∧ u.sp = s.sp := by
  rw [exec_jsr] at h
  obtain rfl := Host.Outcome.next.inj h
  rw [exec_rts, hram, hsp] at h'
  obtain rfl := Host.Outcome.next.inj h'
  have h1 : s.sp - 2 + 1 = s.sp - 1 := by bv_omega
  have h2 : s.sp - 2 + 2 = s.sp := by bv_omega
  have hne : s.sp ≠ s.sp - 1 := by bv_omega
  have hpc : s.pc - 1 + 1 = s.pc := by bv_omega
  have hfirst := Memory.write_wf hwf (stackCell s.sp) (hi (s.pc - 1))
  simp only [h1, h2, Memory.read_write_same hfirst, Memory.read_write_other _ _ (mt stackCell_inj.mp hne),
    Memory.read_write_same hwf, w16_hi_lo, hpc]
  exact ⟨trivial, trivial⟩

/-- RTI finds the three bytes an entry pushed (R313, R405). -/
theorem rti_undoes_entered {s t' u : State} (hwf : s.ram.wf = true) {vec ret : Addr} {brk : Bool}
    (hram : t'.ram = (entered vec ret brk s).ram) (hsp : t'.sp = s.sp - 3) (h' : exec .rti t' = .next u) :
    u.pc = ret ∧ u.sp = s.sp ∧ u.p = s.p := by
  rw [exec_rti, hram, hsp] at h'
  obtain rfl := Host.Outcome.next.inj h'
  have h1 : s.sp - 3 + 1 = s.sp - 2 := by bv_omega
  have h2 : s.sp - 3 + 2 = s.sp - 1 := by bv_omega
  have h3 : s.sp - 3 + 3 = s.sp := by bv_omega
  have hne1 : s.sp ≠ s.sp - 1 := by bv_omega
  have hne2 : s.sp ≠ s.sp - 2 := by bv_omega
  have hne3 : s.sp - 1 ≠ s.sp - 2 := by bv_omega
  have hfirst := Memory.write_wf hwf (stackCell s.sp) (hi ret)
  have hsecond := Memory.write_wf hfirst (stackCell (s.sp - 1)) (lo ret)
  simp only [entered, h1, h2, h3, Memory.read_write_same hsecond, Memory.read_write_same hfirst,
    Memory.read_write_same hwf, Memory.read_write_other _ _ (mt stackCell_inj.mp hne1),
    Memory.read_write_other _ _ (mt stackCell_inj.mp hne2), Memory.read_write_other _ _ (mt stackCell_inj.mp hne3),
    w16_hi_lo, ← pack_eq_packed, unpack_pack]
  exact ⟨trivial, trivial, trivial⟩

/-- Settles O26: the pulls read the cells the pushes wrote, which are distinct. -/
theorem returnsUndoEntries : Obligations.ReturnsUndoEntries := by
  intro s t t' u hwf hram hsp
  refine ⟨fun a h h' => rts_undoes_jsr hwf hram hsp h h', fun i hi h h' => ?_, fun h h' => ?_⟩
  · obtain rfl | rfl := hi
    · rw [exec_nmi] at h
      obtain rfl := Host.Outcome.next.inj h
      exact rti_undoes_entered (s := { s with nmiPending := false, cycles := s.cycles + 7 }) (vec := 0xFFFA)
        hwf hram hsp h'
    · rw [exec_irq] at h
      obtain rfl := Host.Outcome.next.inj h
      exact rti_undoes_entered (s := { s with irqPending := false, cycles := s.cycles + 7 }) (vec := 0xFFFE)
        hwf hram hsp h'
  · rw [exec_brk] at h
    obtain rfl := Host.Outcome.next.inj h
    exact rti_undoes_entered (s := { s with cycles := s.cycles + 7 }) (vec := 0xFFFE)
        hwf hram hsp h'

/-- n pulls read the n cells above SP and raise SP by n (R44). -/
theorem pullN_eq (n : Nat) (s : State) :
    pullN n s = ((List.range n).map fun k => s.ram.read (stackCell (s.sp + BitVec.ofNat 8 (k + 1))),
      s.setSp (s.sp + BitVec.ofNat 8 n)) := by
  induction n generalizing s with
  | zero =>
    have h0 : s.sp + BitVec.ofNat 8 0 = s.sp := by bv_omega
    rw [h0]
    rfl
  | succ n ih =>
    have hcell (k : Nat) : s.sp + 1 + BitVec.ofNat 8 k = s.sp + BitVec.ofNat 8 (k + 1) := by bv_omega
    simp only [pullN, pull_eq_stackCell, ih, hcell, List.range_succ_eq_map, List.map_cons, List.map_map]
    rfl

/-- Pushes after pushes. -/
theorem pushAll_append (l : List Byte) (b : Byte) (s : State) : pushAll (l ++ [b]) s = push b (pushAll l s) := by
  induction l generalizing s with
  | nil => rfl
  | cons c l ih => exact ih (push c s)

/-- Pushes lower SP by their number (R43). -/
theorem pushAll_sp (l : List Byte) (s : State) : (pushAll l s).sp = s.sp - BitVec.ofNat 8 l.length := by
  induction l generalizing s with
  | nil => simp only [pushAll, List.length_nil]; bv_omega
  | cons c l ih => simp only [pushAll, ih, push_eq_stackCell, List.length_cons]; bv_omega

theorem pushAll_wf (l : List Byte) {s : State} (h : s.ram.wf = true) : (pushAll l s).ram.wf = true := by
  induction l generalizing s with
  | nil => exact h
  | cons c l ih =>
    refine ih ?_
    rw [push_eq_stackCell]
    exact Memory.write_wf h _ c

/-- A push is undone by the next pull, and the 255 pulls after it do not see its cell (R45). -/
theorem pullN_push {n : Nat} (hn : n ≤ 255) {s : State} (hwf : s.ram.wf = true) (b : Byte) :
    (pullN (n + 1) (push b s)).1 = b :: (pullN n s).1 := by
  have hslot : s.sp - 1 + BitVec.ofNat 8 (0 + 1) = s.sp := by bv_omega
  have habove (k : Nat) : s.sp - 1 + BitVec.ofNat 8 (k + 1 + 1) = s.sp + BitVec.ofNat 8 (k + 1) := by bv_omega
  rw [pullN_eq, pullN_eq, push_eq_stackCell]
  simp only [List.range_succ_eq_map, List.map_cons, List.map_map, hslot, Memory.read_write_same hwf]
  refine congrArg (b :: ·) (List.map_congr_left fun k hk => ?_)
  have hk := List.mem_range.mp hk
  have hne : s.sp + BitVec.ofNat 8 (k + 1) ≠ s.sp := by bv_omega
  simp only [Function.comp, Nat.succ_eq_add_one, habove]
  exact Memory.read_write_other _ b fun h => hne (stackCell_inj.mp h)

/-- Pulls give pushed bytes back, the last first (R43, R44). -/
theorem pullN_pushAll (l : List Byte) (hl : l.length ≤ 256) {s : State} (hwf : s.ram.wf = true) :
    (pullN l.length (pushAll l s)).1 = l.reverse := by
  induction l using List.reverseRecOn with
  | nil => rfl
  | append_singleton l b ih =>
    simp only [List.length_append, List.length_singleton] at hl ⊢
    rw [pushAll_append, pullN_push (by omega) (pushAll_wf l hwf), ih (by omega), List.reverse_append]
    rfl

/-- Settles O25: up to 256 slots are distinct cells of page 1, and SP counts modulo 256. -/
theorem stackWrapsInPageOne : Obligations.StackWrapsInPageOne := by
  refine ⟨fun s l hl hwf => ⟨pullN_pushAll l hl hwf, ?_, pushAll_sp l s⟩, fun s b hsp => ?_, fun s hsp => ?_⟩
  · rw [pullN_eq, State.setSp_sp, pushAll_sp]
    bv_omega
  · rw [push_eq_stackCell, hsp]; rfl
  · rw [pull_eq_stackCell, hsp]; rfl

end Sys2Proof.Machine
end

section
/-! PROOFS. Stores, the undocumented NOPs and the unstable group (R223 to R225, R352, R360, R366 to R372). -/

namespace Sys2Proof.Machine

open Sys2Proof.Claims

/-- A store to memory: one write at the effective address, with its row charged (R85, R198). -/
theorem storeOperand_of_memory (m : Mnemonic) {o : Operand} (hacc : o ≠ .acc) (himm : ∀ b, o ≠ .imm b) (b : Byte)
    (s : State) :
    storeOperand m o b s =
      (memWrite (eaOf o s) b s).charge (baseCycles m o.mode + pagePenalty m o.mode (crosses o s)) := by
  simp only [storeOperand, resolve_snd, resolve_of_memory hacc himm]
  rfl

/-- An operand whose mode is neither the accumulator's nor immediate is in memory. -/
theorem operand_in_memory {o : Operand} (h : o.mode ≠ .acc ∧ o.mode ≠ .imm) : o ≠ .acc ∧ ∀ b, o ≠ .imm b :=
  ⟨fun ho => h.1 (congrArg Operand.mode ho), fun _ ho => h.2 (congrArg Operand.mode ho)⟩

/-- What makes a mnemonic a storing instruction: its line holds rows of the table in memory modes, its rows assemble to
the term, and the term's meaning stores the value. -/
theorem stores_of_rows {line : List Enc} {m : Mnemonic} {mk : Operand → Instr} {val : State → Byte}
    (hrows : ∀ e ∈ line, e.isRowOf m = true ∧ e.mode ≠ .acc ∧ e.mode ≠ .imm)
    (hterm : ∀ op o, assemble m o.mode op (o.bytes.getD 0 0) (o.bytes.getD 1 0) = mk o)
    (hexec : ∀ o s, exec (mk o) s = .next (storeOperand m o (val s) s)) : Stores line mk val := by
  intro e he o s ho
  obtain ⟨hrow, hmem⟩ := hrows e he
  obtain ⟨hacc, himm⟩ := operand_in_memory (o := o) (by rw [ho]; exact hmem)
  constructor
  · rw [Enc.decode_of_isRowOf hrow ho, hterm]
  · rw [hexec, storeOperand_of_memory m hacc himm, ← Enc.cost_of_isRowOf hrow ho]
    rfl

theorem sta_stores : Stores staLine .sta (·.a) :=
  stores_of_rows (m := .sta) (by decide +kernel) (fun _ o => congrArg Instr.sta (dataOperand_bytes o)) fun _ _ => rfl

theorem stx_stores : Stores stxLine .stx (·.x) :=
  stores_of_rows (m := .stx) (by decide +kernel) (fun _ o => congrArg Instr.stx (dataOperand_bytes o)) fun _ _ => rfl

theorem sty_stores : Stores styLine .sty (·.y) :=
  stores_of_rows (m := .sty) (by decide +kernel) (fun _ o => congrArg Instr.sty (dataOperand_bytes o)) fun _ _ => rfl

theorem sax_stores : Stores saxLine .sax (fun s => s.a &&& s.x) :=
  stores_of_rows (m := .sax) (by decide +kernel) (fun _ o => congrArg Instr.sax (dataOperand_bytes o)) fun _ _ => rfl

/-- Settles O30: each line holds rows of the table, and each meaning is one write at the row's operand. -/
theorem storesWriteOneByte : Obligations.StoresWriteOneByte := ⟨sta_stores, stx_stores, sty_stores, sax_stores⟩

/-- A data operand is the one its own bytes stand for, and is there. -/
theorem dataOperand_bytes_some (o : Operand) : dataOperand o.mode (o.bytes.getD 0 0) (o.bytes.getD 1 0) = some o := by
  cases o <;> simp [dataOperand, Operand.mode, Operand.bytes, wordBytes]

theorem nopU_reads : Reads nopLine (fun op o => .nopU op (some o)) (fun _ s => s) :=
  reads_of_rows (m := .nopU) (by decide +kernel) (fun op o => congrArg (Instr.nopU op) (dataOperand_bytes_some o))
    fun _ _ _ => rfl

theorem nopU_implied {op : Byte} (hop : op ∈ nopImplied) :
    Implied op (.nopU op none) (fun s => { s with cycles := s.cycles + 2 }) := by
  have hdecode : ∀ op ∈ nopImplied, decode [op] = .ok (.nopU op none, []) := by decide +kernel
  exact ⟨hdecode op hop, fun _ => rfl⟩

/-- Settles O43: the implied forms charge two cycles, and the others load their operand and keep nothing of it. -/
theorem undocumentedNops : Obligations.UndocumentedNops := ⟨fun _ => nopU_implied, nopU_reads⟩

/-- Under nmos an unstable instruction has its effect (R366). -/
theorem whenNmos_of_nmos {s : State} (h : s.params.unstableMode = .nmos) (t : State) : whenNmos s t = .next t := by
  simp only [whenNmos, h]

/-- Under refuse it has none (R366). -/
theorem whenNmos_of_refuse {s : State} (h : s.params.unstableMode = .refuse) (t : State) :
    whenNmos s t = .refused .unstableOpcode := by
  simp only [whenNmos, h]

/-- The unstable store in the terms of the statements (R369 to R372). -/
theorem storeUnderHigh_eq {m : Mnemonic} {o : Operand} (h : o.mode ≠ .acc ∧ o.mode ≠ .imm)
    (hpen : hasPenalty m o.mode = false) (b : Byte) (s : State) :
    storeUnderHigh m o b s = storedUnderHigh o b (baseCycles m o.mode) s := by
  obtain ⟨hacc, himm⟩ := operand_in_memory h
  simp only [storeUnderHigh_of_memory m hacc himm, pagePenalty, hpen]
  rfl

/-- XAA (R367). -/
theorem exec_xaa {s : State} (h : s.params.unstableMode = .nmos) (b : Byte) :
    exec (.xaa b) s = .next { s with
      a := (s.a ||| Config.unstableMagic) &&& s.x &&& b, p := nz s.p ((s.a ||| Config.unstableMagic) &&& s.x &&& b)
      cycles := s.cycles + 2 } := by
  simp only [exec, execXaa, whenNmos_of_nmos h, loadOperand_imm, State.loadA_eq]
  rfl

/-- LXA (R368). -/
theorem exec_lxa {s : State} (h : s.params.unstableMode = .nmos) (b : Byte) :
    exec (.lxa b) s = .next { s with
      a := (s.a ||| Config.unstableMagic) &&& b, x := (s.a ||| Config.unstableMagic) &&& b
      p := nz s.p ((s.a ||| Config.unstableMagic) &&& b), cycles := s.cycles + 2 } := by
  simp only [exec, execLxa, whenNmos_of_nmos h, loadOperand_imm, State.loadAX_eq]
  rfl

/-- The rows of SHA (R369). -/
theorem shaLine_rows : ∀ e ∈ shaLine, e.isRowOf .sha = true ∧ (e.mode ≠ .acc ∧ e.mode ≠ .imm) ∧ e.pen = false := by
  decide +kernel

/-- SHA, every form (R369). -/
theorem sha_stores {e : Enc} (he : e ∈ shaLine) {o : Operand} (ho : o.mode = e.mode) {s : State}
    (h : s.params.unstableMode = .nmos) :
    decode (e.op :: o.bytes) = .ok (.sha o, []) ∧
      exec (.sha o) s = .next (storedUnderHigh o (s.a &&& s.x) e.base s) := by
  obtain ⟨hrow, hmem, hpen⟩ := shaLine_rows e he
  obtain ⟨-, hbase, hmark⟩ := Enc.isRowOf_iff.mp hrow
  constructor
  · rw [Enc.decode_of_isRowOf hrow ho]
    exact congrArg (fun o => Except.ok (Instr.sha o, [])) (dataOperand_bytes o)
  · simp only [exec, execSha, whenNmos_of_nmos h]
    rw [storeUnderHigh_eq (by rw [ho]; exact hmem) (by rw [ho, hmark, hpen]), ho, hbase]

/-- Settles O45: under nmos each is its load or its one store, under refuse none has a meaning. -/
theorem unstableOpcodes : Obligations.UnstableOpcodes := by
  refine ⟨fun b a => ⟨rfl, rfl, decode_word rfl (fun _ _ => rfl) a, decode_word rfl (fun _ _ => rfl) a,
    decode_word rfl (fun _ _ => rfl) a⟩, fun s h => ⟨exec_xaa h, exec_lxa h, fun e he o ho => sha_stores he ho h,
    fun a => ?shx, fun a => ?shy, fun a => ?tas⟩,
    fun s h => ⟨fun _ => ⟨whenNmos_of_refuse h _, whenNmos_of_refuse h _⟩, fun _ => whenNmos_of_refuse h _,
      fun _ => ⟨whenNmos_of_refuse h _, whenNmos_of_refuse h _, whenNmos_of_refuse h _⟩⟩⟩
  case shx =>
    simp only [exec, execShx, whenNmos_of_nmos h]
    rw [storeUnderHigh_eq (by simp [Operand.mode]) rfl]
    rfl
  case shy =>
    simp only [exec, execShy, whenNmos_of_nmos h]
    rw [storeUnderHigh_eq (by simp [Operand.mode]) rfl]
    rfl
  case tas =>
    simp only [exec, execTas, whenNmos_of_nmos h]
    rw [storeUnderHigh_eq (by simp [Operand.mode]) rfl]
    rfl

end Sys2Proof.Machine
end

section
/-! PROOFS. One step of a started session: the instruction at pc, and the branches before it (R190 to R197). -/

namespace Sys2Proof.Machine

open Sys2Proof.Claims

/-- One byte of a fetch, then the others. -/
theorem fetchBytes_succ (n : Nat) (s : State) :
    fetchBytes (n + 1) s = ((fetchByte s).1 :: (fetchBytes n (fetchByte s).2).1, (fetchBytes n (fetchByte s).2).2) :=
  rfl

theorem fetchBytes_length (n : Nat) (s : State) : (fetchBytes n s).1.length = n := by
  induction n generalizing s with
  | zero => rfl
  | succ n ih => rw [fetchBytes_succ, List.length_cons, ih]

/-- n fetches move pc by n (R140). -/
theorem fetchBytes_pc (n : Nat) (s : State) : (fetchBytes n s).2.pc = s.pc + BitVec.ofNat 16 n := by
  induction n generalizing s with
  | zero => simp only [fetchBytes]; bv_omega
  | succ n ih => rw [fetchBytes_succ, ih, fetchByte_pc]; bv_omega

/-- An opcode and all of the bytes after it decode to one instruction: they are as many as its mode takes. -/
theorem length_of_decode {op : Byte} {tail : List Byte} {i : Instr} (h : decode (op :: tail) = .ok (i, [])) :
    tail.length = (descriptor op).mode.operandBytes := by
  simp only [decode] at h
  split at h
  case h_1 hn => obtain ⟨-, rfl⟩ := Prod.mk.inj (Except.ok.inj h); exact hn.symm
  case h_2 hn => obtain ⟨-, rfl⟩ := Prod.mk.inj (Except.ok.inj h); exact hn.symm
  case h_3 hn => obtain ⟨-, rfl⟩ := Prod.mk.inj (Except.ok.inj h); exact hn.symm
  case h_4 => cases h

/-- Bytes fetched at pc that decode to one instruction are the fetch of that instruction (R194, R195). -/
theorem fetchInstr_of_decode {n : Nat} {s u : State} {bytes : List Byte} {i : Instr}
    (hfetch : fetchBytes n s = (bytes, u)) (hdecode : decode bytes = .ok (i, [])) : fetchInstr s = (i, u) := by
  cases n with
  | zero =>
    obtain ⟨rfl, -⟩ := Prod.mk.inj hfetch
    cases hdecode
  | succ n =>
    rw [fetchBytes_succ] at hfetch
    obtain ⟨rfl, rfl⟩ := Prod.mk.inj hfetch
    have hn := (fetchBytes_length n (fetchByte s).2).symm.trans (length_of_decode hdecode)
    have hle := (descriptor (fetchByte s).1).mode.operandBytes_le
    simp only [fetchInstr, ← hn]
    match n, hn, hle with
    | 0, hn, _ =>
      rw [show (fetchBytes 0 (fetchByte s).2).1 = [] from rfl, decode_none hn.symm] at hdecode
      exact congrArg (·, _) (Prod.mk.inj (Except.ok.inj hdecode)).1
    | 1, hn, _ =>
      rw [fetchBytes_succ, show (fetchBytes 0 _).1 = [] from rfl, decode_one hn.symm] at hdecode
      exact congrArg (·, _) (Prod.mk.inj (Except.ok.inj hdecode)).1
    | 2, hn, _ =>
      rw [fetchBytes_succ, fetchBytes_succ, show (fetchBytes 0 _).1 = [] from rfl, decode_two hn.symm] at hdecode
      exact congrArg (·, _) (Prod.mk.inj (Except.ok.inj hdecode)).1
    | n + 3, hn, hle => omega

/-- Settles O6: the other branches are excluded, and the fetched bytes are the instruction's. -/
theorem stepRunsDecodedInstruction : Obligations.StepRunsDecodedInstruction := by
  intro s u n bytes i hphase hhalted hnmi hirq hfetch hdecode
  have hpc := fetchBytes_pc n { s with cycles := 0 }
  rw [hfetch] at hpc
  have hinstr := fetchInstr_of_decode hfetch hdecode
  have hcpu : cpuStep (s.setCycles 0) = exec i u := by
    obtain ⟨hh, -⟩ | ⟨-, hn, -⟩ | ⟨-, -, hq, hi, -⟩ | ⟨-, -, -, hc⟩ := cpuStep_cases (s.setCycles 0)
    · exact absurd (hhalted.symm.trans hh) (by decide)
    · exact absurd (hnmi.symm.trans hn) (by decide)
    · obtain hq' | hi' := hirq
      · exact absurd (hq'.symm.trans hq) (by decide)
      · exact absurd (hi'.symm.trans hi) (by decide)
    · rw [hc]
      exact congrArg (fun r : Instr × State => exec r.1 r.2) hinstr
  refine ⟨hpc, ?_⟩
  rw [step_running hphase, hcpu]
  cases exec i u with
  | next t | fault r | refused r => rfl

/-- Fetches one after another. -/
theorem ReadFrame.setPc_trans {s t u : State} {p q : Addr} (h : ReadFrame (s.setPc p) t)
    (h' : ReadFrame (t.setPc q) u) :
    ReadFrame (s.setPc q) u :=
  ⟨h'.a.trans h.a, h'.x.trans h.x, h'.y.trans h.y, h'.sp.trans h.sp, h'.pc, h'.p.trans h.p, h'.cycles.trans h.cycles,
    h'.totalCycles.trans h.totalCycles, h'.halted.trans h.halted, h'.nmiPending.trans h.nmiPending,
    h'.irqPending.trans h.irqPending, h'.ram.trans h.ram, h'.prgRam.trans h.prgRam, h'.cart.trans h.cart,
    h'.params.trans h.params, h'.phase.trans h.phase⟩

/-- The fetch of an instruction is reads, and moves pc (R140). -/
theorem fetchInstr_frame (s : State) : ∃ pc, ReadFrame (s.setPc pc) (fetchInstr s).2 := by
  have hop := fetchByte_frame s
  simp only [fetchInstr, fetchOperands]
  split
  · exact ⟨_, hop⟩
  · exact ⟨_, hop.setPc_trans (fetchByte_frame _)⟩
  · exact ⟨_, (hop.setPc_trans (fetchByte_frame _)).setPc_trans (fetchByte_frame _)⟩

/-- No fetched instruction is a synthetic entry (R160), so it keeps both interrupt lines (R402, R403). -/
theorem exec_fetched_lines {s u : State} (h : exec (fetchInstr s).1 (fetchInstr s).2 = .next u) :
    u.nmiPending = s.nmiPending ∧ u.irqPending = s.irqPending := by
  obtain ⟨pc, hfetch⟩ := fetchInstr_frame s
  obtain ⟨-, -, hfetchable, -, -⟩ := fetchInstr_row s
  simp only [Instr.fetchable, Bool.and_eq_true, bne_iff_ne] at hfetchable
  obtain ⟨-, -, -, -, -, -, -, -, -, -, -, hnmi, hirq, -⟩ := exec_registerFrame h
  exact ⟨(hnmi hfetchable.1).trans hfetch.nmiPending, (hirq hfetchable.2).trans hfetch.irqPending⟩

/-- The end of a step in the terms of the statements (R190, R202). -/
theorem endStep_eq_finished (s : State) : endStep s = finished s := rfl

theorem map_endStep_next (s : State) : Result.map endStep (.next s) = .next (finished s) := rfl

/-- A halted step's only charge (R191, D41). -/
theorem charge_setCycles (s : State) : (s.setCycles 0).charge 1 = { s with cycles := 1 } := rfl

/-- The two entries from the state a step starts with (R191). -/
theorem exec_entry_setCycles (s : State) :
    execNmi (s.setCycles 0) = .next (entered 0xFFFA s.pc false { s with nmiPending := false, cycles := 7 }) ∧
      execIrq (s.setCycles 0) = .next (entered 0xFFFE s.pc false { s with irqPending := false, cycles := 7 }) :=
  ⟨exec_nmi (s.setCycles 0), exec_irq (s.setCycles 0)⟩

/-- Settles O7: each branch is the CPU step's, with the entries in closed form; an instruction keeps the IRQ line. -/
theorem interruptPoll : Obligations.InterruptPoll := by
  intro s hphase
  obtain ⟨hnmi, hirq⟩ := exec_entry_setCycles s
  have hcases := cpuStep_cases (s.setCycles 0)
  simp only [State.setCycles_halted, State.setCycles_nmiPending, State.setCycles_irqPending, State.setCycles_p, hnmi,
    hirq, charge_setCycles] at hcases
  rw [step_running hphase]
  obtain ⟨hh, hc⟩ | ⟨hh, hn, hc⟩ | ⟨hh, hn, hq, hi, hc⟩ | ⟨hh, hn, hqi, hc⟩ := hcases
  · rw [hc, map_endStep_next]
    simp [hh]
  · rw [hc, map_endStep_next]
    simp [hh, hn]
  · rw [hc, map_endStep_next]
    simp [hh, hn, hq, hi]
  · refine ⟨by simp [hh], by simp [hn], fun _ _ hq hi => ?_, fun _ _ hq _ t ht => ?_⟩
    · simp [hq, hi] at hqi
    · rw [← step_running hphase] at ht
      obtain ⟨-, u, hu, rfl⟩ := step_next ht
      rw [hc] at hu
      exact (endStep_frame u).irqPending.trans ((exec_fetched_lines hu).2.trans hq)

end Sys2Proof.Machine
end

section
/-! PROOFS. The PPU's dots: one tick whole, and the counters, the flags and the NMI line over n ticks (R420 to R437). -/

namespace Sys2Proof.Machine

open Sys2Proof.Claims

/-- The PPU's counters are in range (R421). -/
def Ppu.inFrame (p : Ppu) : Prop := p.dot < 341 ∧ p.scanline < 262

/-- The event of a dot writes no register of the PPU but v, no store and neither counter (R424). -/
theorem dotEvent_ppu (s : State) :
    ∃ vblank s0hit overflow v fb, (dotEvent s).ppu =
      { s.ppu with vblank := vblank, s0hit := s0hit, overflow := overflow, v := v, fb := fb } := by
  unfold dotEvent
  split
  · obtain ⟨v, s0hit, fb, h⟩ := renderLine_frame s.params s.cart s.ppu.scanline s.ppu
    exact ⟨s.ppu.vblank, s0hit, s.ppu.overflow, v, fb, h⟩
  split
  · exact ⟨true, false, s.ppu.overflow, s.ppu.v, s.ppu.fb, rfl⟩
  split
  · exact ⟨false, false, false, s.ppu.v, s.ppu.fb, rfl⟩
  · exact ⟨s.ppu.vblank, s.ppu.s0hit, s.ppu.overflow, s.ppu.v, s.ppu.fb, rfl⟩

/-- The advance writes the counters, v and the frame flag alone (R422, R436). -/
theorem nextDot_ppu (s : State) :
    ∃ dot scanline v frameReady, (nextDot s).ppu =
      { s.ppu with dot := dot, scanline := scanline, v := v, frameReady := frameReady } := by
  unfold nextDot nextLine
  split
  · split
    · exact ⟨_, _, _, _, rfl⟩
    · exact ⟨_, _, s.ppu.v, s.ppu.frameReady, rfl⟩
  · exact ⟨_, s.ppu.scanline, s.ppu.v, s.ppu.frameReady, rfl⟩

/-- What a tick leaves of the PPU in every state (R420). -/
theorem ppuTick_ppu (s : State) :
    (ppuTick s).ppu = { s.ppu with
      dot := (ppuTick s).ppu.dot, scanline := (ppuTick s).ppu.scanline, vblank := (ppuTick s).ppu.vblank
      s0hit := (ppuTick s).ppu.s0hit, overflow := (ppuTick s).ppu.overflow, v := (ppuTick s).ppu.v
      fb := (ppuTick s).ppu.fb, frameReady := (ppuTick s).ppu.frameReady } := by
  obtain ⟨vblank, s0hit, overflow, v, fb, hevent⟩ := dotEvent_ppu s
  obtain ⟨dot, scanline, v', frameReady, hnext⟩ := nextDot_ppu (dotEvent s)
  rw [ppuTick, hnext, hevent]

theorem ppuTick_ctrl (s : State) : (ppuTick s).ppu.ctrl = s.ppu.ctrl := by rw [ppuTick_ppu]

/-- The last of n + 1 ticks. -/
theorem ppuTicks_succ_last (n : Nat) (s : State) : ppuTicks (n + 1) s = ppuTick (ppuTicks n s) := ppuTicks_add n 1 s

theorem ppuTicks_ctrl (n : Nat) (s : State) : (ppuTicks n s).ppu.ctrl = s.ppu.ctrl := by
  induction n with
  | zero => rfl
  | succ n ih => rw [ppuTicks_succ_last, ppuTick_ctrl, ih]

/-- The event of a dot in the terms of the statements (R424, R434). -/
theorem dotEvent_eq {s : State} (h : s.ppu.inFrame) :
    dotEvent s = { s with
      ppu := afterEvent s
      nmiPending := s.nmiPending || (decide (dotPos s.ppu = vblankDot) && s.ppu.ctrl.getLsbD 7) } := by
  obtain ⟨hdot, hline⟩ := h
  have hvblank : s.ppu.scanline = 241 ∧ s.ppu.dot = 1 ↔ dotPos s.ppu = vblankDot := by
    simp only [dotPos, vblankDot]; omega
  have hpre : s.ppu.scanline = 261 ∧ s.ppu.dot = 1 ↔ dotPos s.ppu = preRenderDot := by
    simp only [dotPos, preRenderDot]; omega
  unfold dotEvent afterEvent
  simp only [hvblank, hpre]
  split
  next hvisible =>
    have hne : dotPos s.ppu ≠ vblankDot := fun he => by have := hvblank.mpr he; omega
    simp only [hne, decide_false, Bool.false_and, Bool.or_false]
    rfl
  next =>
  split
  next he => simp only [he, decide_true, Bool.true_and]; rfl
  next hne =>
    simp only [hne, decide_false, Bool.false_and, Bool.or_false]
    split <;> rfl

/-- The advance in the terms of the statements: the next place around the frame (R421, R422, R436). -/
theorem nextDot_eq {s : State} (h : s.ppu.inFrame) :
    nextDot s = { s with ppu := { s.ppu with
      dot := (dotPos s.ppu + 1) % frameDots % 341
      scanline := (dotPos s.ppu + 1) % frameDots / 341
      v := if dotPos s.ppu = lastDotOfFrame ∧ (s.ppu.mask.getLsbD 3 = true ∨ s.ppu.mask.getLsbD 4 = true) then s.ppu.t
        else s.ppu.v
      frameReady := s.ppu.frameReady || decide (dotPos s.ppu = lastDotOfFrame) } } := by
  obtain ⟨hdot, hline⟩ := h
  unfold nextDot nextLine
  have hdots : dotsPerLine = 341 := rfl
  have hlines : linesPerFrame = 262 := rfl
  by_cases hend : s.ppu.dot + 1 = dotsPerLine
  · rw [if_pos hend]
    by_cases hlast : s.ppu.scanline = linesPerFrame - 1
    · rw [if_pos hlast]
      have hpos : dotPos s.ppu = lastDotOfFrame := by simp only [dotPos, lastDotOfFrame, frameDots]; omega
      simp only [preRenderEnd, hpos, rendering, Bool.or_eq_true, true_and, decide_true, Bool.or_true]
      rfl
    · rw [if_neg hlast]
      have hpos : dotPos s.ppu ≠ lastDotOfFrame := by simp only [dotPos, lastDotOfFrame, frameDots]; omega
      have hdot' : (dotPos s.ppu + 1) % frameDots % 341 = 0 := by simp only [dotPos, frameDots]; omega
      have hline' : (dotPos s.ppu + 1) % frameDots / 341 = s.ppu.scanline + 1 := by
        simp only [dotPos, frameDots]; omega
      simp only [hpos, hdot', hline', false_and, if_false, decide_false, Bool.or_false]
      rfl
  · rw [if_neg hend]
    have hpos : dotPos s.ppu ≠ lastDotOfFrame := by simp only [dotPos, lastDotOfFrame, frameDots]; omega
    have hdot' : (dotPos s.ppu + 1) % frameDots % 341 = s.ppu.dot + 1 := by simp only [dotPos, frameDots]; omega
    have hline' : (dotPos s.ppu + 1) % frameDots / 341 = s.ppu.scanline := by simp only [dotPos, frameDots]; omega
    simp only [hpos, hdot', hline', false_and, if_false, decide_false, Bool.or_false]
    rfl

/-- One tick whole (R422, R424, R434 to R436). -/
theorem ppuTick_eq {s : State} (h : s.ppu.inFrame) :
    ppuTick s = { s with
      ppu := { afterEvent s with
        dot := (dotPos s.ppu + 1) % frameDots % 341
        scanline := (dotPos s.ppu + 1) % frameDots / 341
        v := if dotPos s.ppu = lastDotOfFrame ∧ (s.ppu.mask.getLsbD 3 = true ∨ s.ppu.mask.getLsbD 4 = true) then s.ppu.t
          else (afterEvent s).v
        frameReady := s.ppu.frameReady || decide (dotPos s.ppu = lastDotOfFrame) }
      nmiPending := s.nmiPending || (decide (dotPos s.ppu = vblankDot) && s.ppu.ctrl.getLsbD 7) } := by
  obtain ⟨vblank, s0hit, overflow, v, fb, hppu⟩ := dotEvent_ppu s
  have hevent : afterEvent s =
      { s.ppu with vblank := vblank, s0hit := s0hit, overflow := overflow, v := v, fb := fb } := by
    rw [← hppu, dotEvent_eq h]
  have hframe : (dotEvent s).ppu.inFrame := by rw [hppu]; exact h
  rw [ppuTick, nextDot_eq hframe, dotEvent_eq h]
  simp only [hevent]
  rfl

/-- Settles O11: the event of the dot, then the advance; n ticks are one tick n times. -/
theorem ppuTickEffect : Obligations.PpuTickEffect :=
  ⟨fun _ hdot hline => ppuTick_eq ⟨hdot, hline⟩, ppuTick_ppu, fun _ => rfl, ppuTicks_succ_last⟩

/-- A tick moves to the next place of the frame, and stays in it. -/
theorem ppuTick_dotPos {s : State} (h : s.ppu.inFrame) :
    (ppuTick s).ppu.inFrame ∧ dotPos (ppuTick s).ppu = (dotPos s.ppu + 1) % frameDots := by
  rw [ppuTick_eq h]
  simp only [Ppu.inFrame, dotPos, frameDots]
  omega

/-- n ticks move n places around the frame. -/
theorem ppuTicks_dotPos (n : Nat) {s : State} (h : s.ppu.inFrame) :
    (ppuTicks n s).ppu.inFrame ∧ dotPos (ppuTicks n s).ppu = (dotPos s.ppu + n) % frameDots := by
  induction n with
  | zero =>
    obtain ⟨hdot, hline⟩ := h
    have hlt : dotPos s.ppu < frameDots := by simp only [dotPos, frameDots]; omega
    exact ⟨⟨hdot, hline⟩, by rw [Nat.add_zero, Nat.mod_eq_of_lt hlt]; rfl⟩
  | succ n ih =>
    obtain ⟨hin, hpos⟩ := ih
    obtain ⟨hin', hpos'⟩ := ppuTick_dotPos hin
    rw [ppuTicks_succ_last]
    refine ⟨hin', ?_⟩
    rw [hpos', hpos]
    simp only [frameDots]
    omega

/-- The NMI line over n ticks: raised by the vblank dot alone, if PPUCTRL bit 7 is set (R402, R434). -/
theorem ppuTicks_nmi (n : Nat) {s : State} (h : s.ppu.inFrame) :
    (ppuTicks n s).nmiPending = true ↔
      s.nmiPending = true ∨
        (∃ k < n, (dotPos s.ppu + k) % frameDots = vblankDot) ∧ s.ppu.ctrl.getLsbD 7 = true := by
  induction n with
  | zero => simp [ppuTicks]
  | succ n ih =>
    obtain ⟨hin, hpos⟩ := ppuTicks_dotPos n h
    have hsplit : (∃ k < n + 1, (dotPos s.ppu + k) % frameDots = vblankDot) ↔
        (∃ k < n, (dotPos s.ppu + k) % frameDots = vblankDot) ∨ (dotPos s.ppu + n) % frameDots = vblankDot := by
      simp only [Nat.lt_succ_iff_lt_or_eq, or_and_right, exists_or, exists_eq_left]
    rw [ppuTicks_succ_last, ppuTick_eq hin]
    simp only [Bool.or_eq_true, ih, Bool.and_eq_true, decide_eq_true_eq, hpos, ppuTicks_ctrl, hsplit, or_and_right,
      or_assoc]

/-- The vblank flag after one tick (R434, R435). -/
theorem ppuTick_vblank {s : State} (h : s.ppu.inFrame) :
    (ppuTick s).ppu.vblank = if dotPos s.ppu = vblankDot then true else if dotPos s.ppu = preRenderDot then false
      else s.ppu.vblank := by
  obtain ⟨v, s0hit, fb, hline⟩ := renderLine_frame s.params s.cart s.ppu.scanline s.ppu
  rw [ppuTick_eq h]
  unfold afterEvent
  split
  next hvisible =>
    obtain ⟨hdot, -⟩ := h
    have hvblank : dotPos s.ppu ≠ vblankDot := by simp only [dotPos, vblankDot]; omega
    have hpre : dotPos s.ppu ≠ preRenderDot := by simp only [dotPos, preRenderDot]; omega
    rw [if_neg hvblank, if_neg hpre, hline]
  next =>
    split
    · rfl
    · split <;> rfl

/-- From the pre-render dot on no tick of the frame sets the sprite-zero hit, and that dot clears it (R435). -/
theorem ppuTick_s0hit {s : State} (h : s.ppu.inFrame) (hpre : preRenderDot ≤ dotPos s.ppu) :
    (ppuTick s).ppu.s0hit = if dotPos s.ppu = preRenderDot then false else s.ppu.s0hit := by
  obtain ⟨hdot, -⟩ := id h
  have hpre' : 89002 ≤ dotPos s.ppu := hpre
  have hvblank : dotPos s.ppu ≠ vblankDot := by simp only [vblankDot]; omega
  have hbelow : ¬ (s.ppu.scanline < 240 ∧ s.ppu.dot = s.params.renderDot.val) := by
    simp only [dotPos] at hpre'
    omega
  rw [ppuTick_eq h]
  unfold afterEvent
  rw [if_neg hbelow, if_neg hvblank]
  split <;> rfl

/-- One frame of ticks from dot (0, 0), by the number of ticks (R434 to R437). -/
theorem ppuTicks_frameFlags {s : State} (hdot : s.ppu.dot = 0) (hline : s.ppu.scanline = 0) (n : Nat)
    (hn : n ≤ frameDots) :
    (ppuTicks n s).ppu.vblank = (if n ≤ vblankDot then s.ppu.vblank else decide (n ≤ preRenderDot)) ∧
      (ppuTicks n s).nmiPending = (if n ≤ vblankDot then s.nmiPending else s.nmiPending || s.ppu.ctrl.getLsbD 7) ∧
      (preRenderDot < n → (ppuTicks n s).ppu.s0hit = false) := by
  have hstart : s.ppu.inFrame := by simp only [Ppu.inFrame, hdot, hline]; omega
  induction n with
  | zero => exact ⟨rfl, rfl, fun h => absurd h (Nat.not_lt_zero _)⟩
  | succ n ih =>
    obtain ⟨hvblank, hnmi, hs0hit⟩ := ih (Nat.le_of_succ_le hn)
    obtain ⟨hin, hpos⟩ := ppuTicks_dotPos n hstart
    have hpos' : dotPos (ppuTicks n s).ppu = n := by
      have hzero : dotPos s.ppu = 0 := by rw [dotPos, hdot, hline]
      rw [hpos, hzero, Nat.zero_add, Nat.mod_eq_of_lt hn]
    have hnmi' : (ppuTick (ppuTicks n s)).nmiPending =
        ((ppuTicks n s).nmiPending || (decide (n = vblankDot) && s.ppu.ctrl.getLsbD 7)) := by
      rw [ppuTick_eq hin, hpos', ppuTicks_ctrl]
    rw [ppuTicks_succ_last]
    refine ⟨?_, ?_, fun h => ?_⟩
    · rw [ppuTick_vblank hin, hpos', hvblank]
      have hup : n ≠ 89002 → decide (n ≤ 89002) = decide (n + 1 ≤ 89002) := fun hne => decide_eq_decide.mpr (by omega)
      simp only [vblankDot, preRenderDot]
      grind
    · rw [hnmi', hnmi]
      simp only [vblankDot]
      grind
    · rw [ppuTick_s0hit hin (hpos'.symm ▸ Nat.le_of_lt_succ h), hpos']
      split
      · rfl
      next hne => exact hs0hit (Nat.lt_of_le_of_ne (Nat.le_of_lt_succ h) (Ne.symm hne))

/-- Settles O10: the flags by the number of ticks, and the last tick marks the frame ready. -/
theorem frameTiming : Obligations.FrameTiming := by
  intro s hdot hline
  have hflags := fun n => ppuTicks_frameFlags hdot hline n
  have hstart : s.ppu.inFrame := by simp only [Ppu.inFrame, hdot, hline]; omega
  have hzero : dotPos s.ppu = 0 := by rw [dotPos, hdot, hline]
  refine ⟨fun n hn => ?_, fun n hlo hhi => ?_, fun n hlo hhi => ?_, ?_, ?_⟩
  · obtain ⟨hvblank, hnmi, -⟩ := hflags n (by simp only [frameDots]; omega)
    have hbefore : n ≤ vblankDot := hn
    rw [if_pos hbefore] at hvblank hnmi
    exact ⟨hvblank, hnmi⟩
  · obtain ⟨hvblank, hnmi, -⟩ := hflags n (by simp only [frameDots]; omega)
    have hafter : ¬ n ≤ vblankDot := Nat.not_le.mpr hlo
    rw [if_neg hafter] at hvblank hnmi
    exact ⟨hvblank.trans (decide_eq_true hhi), hnmi⟩
  · obtain ⟨hvblank, hnmi, hs0hit⟩ := hflags n hhi
    have hafter : ¬ n ≤ vblankDot := by simp only [vblankDot]; omega
    rw [if_neg hafter] at hvblank hnmi
    exact ⟨hvblank.trans (decide_eq_false (Nat.not_le.mpr hlo)), hs0hit hlo, hnmi⟩
  · obtain ⟨hin, hpos⟩ := ppuTicks_dotPos 89341 hstart
    have hlast : dotPos (ppuTicks 89341 s).ppu = lastDotOfFrame := by rw [hpos, hzero]; decide
    rw [ppuTicks_succ_last 89341, ppuTick_eq hin, hlast, decide_eq_true rfl, Bool.or_true]
  · rw [(ppuTicks_dotPos 89342 hstart).2, hzero]
    decide

/-- Settles O8: an instruction charges its row and moves no counter, and the catch-up is three ticks a cycle. -/
theorem stepAdvancesThreeDotsACycle : Obligations.StepAdvancesThreeDotsACycle := by
  intro s t hdot hline h
  obtain ⟨-, n, u, hn, he, rfl⟩ := step_effects h
  obtain ⟨hframe, hcycles⟩ := he.instrFrame
  have hcharged := Nat.zero_add n ▸ hcycles
  have hin : (u.setTotalCycles (u.totalCycles + u.cycles)).ppu.inFrame :=
    ⟨hframe.dot.trans_lt hdot, hframe.scanline.trans_lt hline⟩
  obtain ⟨⟨hdot', hline'⟩, hpos⟩ := ppuTicks_dotPos (3 * u.cycles) hin
  have hstart : dotPos u.ppu = dotPos s.ppu := by
    simp only [dotPos, hframe.dot, hframe.scanline]
    rfl
  have hend := endStep_frame u
  refine ⟨?_, ?_, hdot', hline', ?_⟩
  · rw [hend.cycles]; exact hn.trans hcharged
  · rw [hend.totalCycles, hend.cycles]; exact congrArg (· + u.cycles) hframe.totalCycles
  · rw [hend.cycles, ← hstart]; exact hpos

/-- The NMI line before the catch-up: still set only if the CPU is halted (R191, R402, R406). -/
theorem cpuStep_nmi {s u : State} (h : cpuStep s = .next u) :
    u.nmiPending = true ↔ s.nmiPending = true ∧ s.halted = true := by
  obtain ⟨hh, hc⟩ | ⟨hh, hn, hc⟩ | ⟨hh, hn, -, -, hc⟩ | ⟨hh, hn, -, hc⟩ := cpuStep_cases s
  · rw [hc] at h
    obtain rfl := Host.Outcome.next.inj h
    simp [hh]
  · rw [hc] at h
    obtain rfl := Host.Outcome.next.inj ((exec_nmi s).symm.trans h)
    simp [hh, entered]
  · rw [hc] at h
    obtain rfl := Host.Outcome.next.inj ((exec_irq s).symm.trans h)
    simp [hn, entered]
  · rw [hc] at h
    rw [(exec_fetched_lines h).1]
    simp [hn]

/-- Settles O9: the CPU step services the line or, halted, leaves it; then only the catch-up raises it. -/
theorem nmiLineSetOnlyByVblank : Obligations.NmiLineSetOnlyByVblank := by
  intro s t hdot hline h
  obtain ⟨-, u, hcpu, rfl⟩ := step_next h
  obtain ⟨n, -, he⟩ := cpuStep_effects hcpu
  obtain ⟨hframe, -⟩ := he.instrFrame
  have hin : (u.setTotalCycles (u.totalCycles + u.cycles)).ppu.inFrame :=
    ⟨hframe.dot.trans_lt hdot, hframe.scanline.trans_lt hline⟩
  have hstart : dotPos u.ppu = dotPos s.ppu := by
    simp only [dotPos, hframe.dot, hframe.scanline]
    rfl
  have hctrl : (endStep u).ppu.ctrl = u.ppu.ctrl := ppuTicks_ctrl _ _
  rw [(endStep_frame u).cycles, hctrl, ← hstart]
  have hline' := cpuStep_nmi hcpu
  exact (ppuTicks_nmi (3 * u.cycles) hin).trans (or_congr_left hline')

/-- The step of a halted CPU (R191, D41). -/
theorem step_halted {s : State} (hphase : s.phase = .running) (hhalted : s.halted = true) :
    step s = .next (finished { s with cycles := 1 }) := (interruptPoll s hphase).1 hhalted

/-- The twelve JAM words (R373). -/
theorem jam_implied {op : Byte} (hop : op ∈ jamLine) :
    Implied op (.jam op) (fun s => { s with halted := true, cycles := s.cycles + 1 }) := by
  have hdecode : ∀ op ∈ jamLine, decode [op] = .ok (.jam op, []) := by decide +kernel
  exact ⟨hdecode op hop, fun _ => rfl⟩

/-- A halted CPU goes on halted, step by step (R415). -/
theorem run_halted (n : Nat) {s : State} (hphase : s.phase = .running) (hhalted : s.halted = true) (h : s.ppu.inFrame) :
    ∃ t : State, Host.Core.run core n s = .next t ∧
      t = { s with ppu := t.ppu, nmiPending := t.nmiPending, cycles := t.cycles, totalCycles := s.totalCycles + n } ∧
      (s.nmiPending = true → t.nmiPending = true) ∧ dotPos t.ppu = (dotPos s.ppu + 3 * n) % frameDots := by
  induction n generalizing s with
  | zero => exact ⟨s, rfl, rfl, id, (ppuTicks_dotPos 0 h).2⟩
  | succ n ih =>
    have hone : ({ s with cycles := 1, totalCycles := s.totalCycles + 1 } : State).ppu.inFrame := h
    have hframe := ppuTicks_frame 3 { s with cycles := 1, totalCycles := s.totalCycles + 1 }
    obtain ⟨hin, hpos⟩ := ppuTicks_dotPos 3 hone
    have hnmi := ppuTicks_nmi 3 hone
    obtain ⟨t, hrun, ht, hkeep, hpos'⟩ := ih (hframe.phase.trans hphase) (hframe.halted.trans hhalted) hin
    refine ⟨t, (run_succ (step_halted hphase hhalted) n).trans hrun, ?_, fun hs => hkeep (hnmi.mpr (.inl hs)), ?_⟩
    · rw [ht]
      simp only [hframe.a, hframe.x, hframe.y, hframe.sp, hframe.pc, hframe.p, hframe.totalCycles, hframe.halted,
        hframe.irqPending, hframe.ram, hframe.prgRam, hframe.cart, hframe.pads, hframe.params, hframe.phase,
        hframe.draws, Nat.add_assoc, Nat.add_comm 1 n]
    · rw [hpos', hpos]
      simp only [frameDots]
      omega

/-- Settles O46: a halted step is three ticks and one cycle, and leaves the CPU halted. -/
theorem jamHaltsForGood : Obligations.JamHaltsForGood :=
  ⟨fun _ => jam_implied, fun n _ hphase hhalted hdot hline => run_halted n hphase hhalted ⟨hdot, hline⟩⟩

end Sys2Proof.Machine
end

section
/-! PROOFS. The fields of the VRAM address written and read through the PPU's registers (R439, R441, R444 to R448). -/

namespace Sys2Proof.Machine

open Sys2Proof.Claims

/-- The base nametable bits (R439). -/
theorem writeCtrl_t (t : VramReg) (d : Byte) :
    (t &&& ~~~(0x0C00 : VramReg)) ||| (d &&& 0x03).setWidth 15 <<< 10 =
      t.extractLsb' 12 3 ++ d.extractLsb' 0 2 ++ t.extractLsb' 0 10 := by
  refine BitVec.eq_of_getLsbD_eq fun i hi => ?_
  show _ = BitVec.getLsbD (w := 3 + 2 + 10) _ i
  simp only [BitVec.getLsbD_append]
  interval_cases i <;> simp

/-- Coarse X (R445). -/
theorem writeScroll_t_x (t : VramReg) (d : Byte) :
    (t &&& ~~~(0x001F : VramReg)) ||| (d >>> 3).setWidth 15 = t.extractLsb' 5 10 ++ d.extractLsb' 3 5 := by
  refine BitVec.eq_of_getLsbD_eq fun i hi => ?_
  show _ = BitVec.getLsbD (w := 10 + 5) _ i
  simp only [BitVec.getLsbD_append]
  interval_cases i <;> simp

/-- Fine Y and coarse Y (R445). -/
theorem writeScroll_t_y (t : VramReg) (d : Byte) :
    (t &&& ~~~(0x73E0 : VramReg)) ||| (d &&& 0x07).setWidth 15 <<< 12 ||| (d &&& 0xF8).setWidth 15 <<< 2 =
      d.extractLsb' 0 3 ++ t.extractLsb' 10 2 ++ d.extractLsb' 3 5 ++ t.extractLsb' 0 5 := by
  refine BitVec.eq_of_getLsbD_eq fun i hi => ?_
  show _ = BitVec.getLsbD (w := 3 + 2 + 5 + 5) _ i
  simp only [BitVec.getLsbD_append]
  interval_cases i <;> simp

/-- The high byte of an address, six bits of it (R446). -/
theorem writeAddr_t_high (t : VramReg) (d : Byte) :
    (t &&& (0x00FF : VramReg)) ||| (d &&& 0x3F).setWidth 15 <<< 8 =
      (0 : BitVec 1) ++ d.extractLsb' 0 6 ++ t.extractLsb' 0 8 := by
  refine BitVec.eq_of_getLsbD_eq fun i hi => ?_
  show _ = BitVec.getLsbD (w := 1 + 6 + 8) _ i
  simp only [BitVec.getLsbD_append]
  interval_cases i <;> simp

/-- The low byte of an address (R446). -/
theorem writeAddr_t_low (t : VramReg) (d : Byte) : (t &&& 0x7F00) ||| d.setWidth 15 = t.extractLsb' 8 7 ++ d := by
  refine BitVec.eq_of_getLsbD_eq fun i hi => ?_
  show _ = BitVec.getLsbD (w := 7 + 8) _ i
  simp only [BitVec.getLsbD_append]
  interval_cases i <;> simp

/-- Settles O48: each write is its register's, and its masks and shifts are the fields of t. -/
theorem scrollAndAddressWrites : Obligations.ScrollAndAddressWrites := by
  intro s a d hlo hhi
  rw [memWrite_of_ppuReg hlo hhi]
  refine ⟨fun hr => ?ctrl, fun hr hw => ?scrollX, fun hr hw => ?scrollY, fun hr hw => ?high, fun hr hw => ?low⟩ <;>
    rw [hr]
  case ctrl => rw [← writeCtrl_t]; rfl
  case scrollX =>
    rw [← writeScroll_t_x, ppuRegWrite, writeScroll, hw]
    rfl
  case scrollY =>
    rw [← writeScroll_t_y, ppuRegWrite, writeScroll, hw]
    rfl
  case high =>
    rw [← writeAddr_t_high, ppuRegWrite, writeAddr, hw]
    rfl
  case low =>
    rw [← writeAddr_t_low, ppuRegWrite, writeAddr, hw]
    rfl

/-- The status byte as a number (R441). -/
theorem statusByte_eq (ppu : Ppu) (low : Byte) :
    statusByte ppu low =
      BitVec.ofNat 8 (128 * ppu.vblank.toNat + 64 * ppu.s0hit.toNat + 32 * ppu.overflow.toNat + low.toNat % 32) := by
  have hbits : ∀ (vblank s0hit overflow : Bool) (low : Byte),
      ((if vblank then 0x80 else 0) ||| (if s0hit then 0x40 else 0) ||| (if overflow then 0x20 else 0) |||
        (low &&& 0x1F) : Byte) =
      BitVec.ofNat 8 (128 * vblank.toNat + 64 * s0hit.toNat + 32 * overflow.toNat + low.toNat % 32) := by
    decide +kernel
  exact hbits ppu.vblank ppu.s0hit ppu.overflow low

/-- The address of register 7 is v modulo 0x4000 (R458). -/
theorem vramAddr_eq (v : VramReg) : vramAddr v = BitVec.ofNat 14 v.toNat := (BitVec.ofNat_toNat 14 v).symm

/-- The step of v by register 7 (R450). -/
theorem vramNext_eq (ppu : Ppu) :
    vramNext ppu = BitVec.ofNat 15 (ppu.v.toNat + (if ppu.ctrl.getLsbD 2 then 32 else 1)) := by
  apply BitVec.eq_of_toNat_eq
  rw [vramNext, BitVec.toNat_add, BitVec.toNat_ofNat]
  split <;> rfl

/-- A write of the PPU space leaves v and PPUCTRL (R99). -/
theorem vramNext_ppuWrite (a : PpuAddr) (d : Byte) (s : State) : vramNext (ppuWrite a d s).ppu = vramNext s.ppu := by
  unfold ppuWrite
  split
  · split <;> rfl
  · rfl
  · rfl

/-- Settles O49: the address decodes to its register, whose flags and step of v are numbers. -/
theorem ppuDataRegisters : Obligations.PpuDataRegisters := by
  intro s a d hlo hhi
  rw [memRead_ppuReg hlo hhi, memWrite_of_ppuReg hlo hhi, ← vramNext_eq, ← vramAddr_eq]
  refine ⟨fun hr => ?status, fun hr => ?oamData, fun hr => ?read, fun hr => ?write⟩ <;> rw [hr]
  case status => rw [ppuRegRead, readStatus, statusByte_eq]; rfl
  case oamData => rfl
  case read => rfl
  case write =>
    rw [ppuRegWrite, writePpuData, vramNext_ppuWrite]
    rfl

end Sys2Proof.Machine
end

section
/-! PROOFS. The PPU's address space: its decode in numbers, and a read after a write (R94 to R99). -/

namespace Sys2Proof.Machine

open Sys2Proof.Claims

/-- The physical bank by the table of R96. -/
theorem nametableBank_eq (m : Mirroring) {page : Nat} (h : page < 4) :
    nametableBank m page = (match m with
      | .vertical => [0, 1, 0, 1]
      | .horizontal => [0, 0, 1, 1]
      | .fourScreen => [0, 1, 2, 3]).getD page 0 := by
  cases m <;> interval_cases page <;> rfl

/-- The palette entry of an address, entries 0x10, 0x14, 0x18, 0x1C those of the background (R98). -/
theorem paletteIndex_eq (a : PpuAddr) :
    paletteIndex a = if a.toNat % 32 ∈ [0x10, 0x14, 0x18, 0x1C] then a.toNat % 32 - 16 else a.toNat % 32 := by
  simp only [paletteIndex, List.mem_cons, List.not_mem_nil, or_false]

/-- The mirror of the nametables at 0x3000 selects what 0x2000 does (R97). -/
theorem ciramIndex_mirror (m : Mirroring) {a : PpuAddr} (h : 0x3000 ≤ a.toNat) :
    ciramIndex m (a - 0x1000) = ciramIndex m a := by
  have hle : (0x1000 : PpuAddr) ≤ a := (show 0x1000 ≤ a.toNat by omega)
  have hsub : (a - 0x1000).toNat = a.toNat - 0x1000 := BitVec.toNat_sub_of_le hle
  have hpage : (a.toNat - 0x1000) / 0x400 % 4 = a.toNat / 0x400 % 4 := by omega
  have hplace : (a.toNat - 0x1000) % 0x400 = a.toNat % 0x400 := by omega
  rw [ciramIndex, ciramIndex, hsub, hpage, hplace]

/-- The decode of the PPU space in numbers (R94 to R98). -/
theorem ppuDecode_eq (m : Mirroring) (a : PpuAddr) :
    ppuDecode m a =
      if a.toNat < 0x2000 then .pattern a.toNat
      else if a.toNat < 0x3F00 then
        .nametable (nametableBank m (a.toNat / 1024 % 4) * 1024 + a.toNat % 1024)
      else .palette (if a.toNat % 32 ∈ [0x10, 0x14, 0x18, 0x1C] then a.toNat % 32 - 16 else a.toNat % 32) := by
  rw [ppuDecode, ← paletteIndex_eq]
  by_cases hpattern : a.toNat < 0x2000
  · rw [if_pos hpattern, if_pos hpattern]
  rw [if_neg hpattern, if_neg hpattern]
  by_cases hname : a.toNat < 0x3000
  · rw [if_pos hname, if_pos (show a.toNat < 0x3F00 by omega)]
    rfl
  rw [if_neg hname, ciramIndex_mirror m (Nat.not_lt.mp hname)]
  rfl

/-- A read of the PPU space after one write (R95, R98, R99). -/
theorem ppuRead_ppuWrite {s : State} (a b : PpuAddr) (d : Byte) (hciram : s.ppu.ciram.wf = true)
    (hpalette : s.ppu.palette.wf = true) (hchr : s.cart.chr.wf = true) :
    ppuRead (ppuWrite a d s).cart (ppuWrite a d s).ppu b =
      if ppuDecode s.cart.mirroring b = ppuDecode s.cart.mirroring a then
        (match ppuDecode s.cart.mirroring a with
         | .pattern _ => if s.cart.chrPages = 0 then d else ppuRead s.cart s.ppu b
         | .nametable _ => d
         | .palette _ => d &&& 0x3F)
      else ppuRead s.cart s.ppu b := by
  have hsix : d &&& 0x3F &&& 0x3F = d &&& 0x3F := by rw [BitVec.and_assoc, BitVec.and_self]
  unfold ppuWrite ppuRead
  cases ppuDecode s.cart.mirroring a with
  | pattern k =>
    by_cases hrom : s.cart.chrPages = 0
    · simp only [hrom, if_true, State.setCart_cart, State.setCart_ppu]
      cases ppuDecode s.cart.mirroring b with
      | pattern j => simp only [Memory.read_write hchr, PpuTarget.pattern.injEq]
      | nametable _ | palette _ => rfl
    · simp only [hrom, if_false, ite_self]
  | nametable k =>
    simp only [State.setPpu_cart, State.setPpu_ppu]
    cases ppuDecode s.cart.mirroring b with
    | nametable j => simp only [Memory.read_write hciram, PpuTarget.nametable.injEq]
    | pattern _ | palette _ => rfl
  | palette k =>
    simp only [State.setPpu_cart, State.setPpu_ppu]
    cases ppuDecode s.cart.mirroring b with
    | palette j =>
      simp only [Memory.read_write hpalette, PpuTarget.palette.injEq]
      split
      · exact hsix
      · rfl
    | pattern _ | nametable _ => rfl

/-- The low six bits of a byte as a number (R98). -/
theorem sixBits_eq (d : Byte) : d &&& 0x3F = BitVec.ofNat 8 (d.toNat % 64) := by
  revert d
  decide +kernel

/-- A palette read has six bits (R98). -/
theorem ppuRead_palette_lt (cart : Cartridge) (ppu : Ppu) {a : PpuAddr} (h : 0x3F00 ≤ a.toNat) :
    (ppuRead cart ppu a).toNat < 64 := by
  have hpalette : ppuDecode cart.mirroring a = .palette (paletteIndex a) := by
    rw [ppuDecode, if_neg (by omega), if_neg (by omega), if_neg (by omega)]
  rw [ppuRead, hpalette]
  exact sixBits_lt _

/-- Settles O50: the decode in numbers, one write of a canonical store, and the six bits of a palette entry. -/
theorem ppuSpaceMirroring : Obligations.PpuSpaceMirroring := by
  refine ⟨fun m a => ?_, fun s a b d hciram hpalette hchr => ?_, fun cart ppu a h => ppuRead_palette_lt cart ppu h⟩
  · rw [ppuDecode_eq, nametableBank_eq m (Nat.mod_lt _ (by decide))] <;> cases m <;> rfl
  · rw [ppuRead_ppuWrite a b d hciram hpalette hchr, sixBits_eq] <;> rfl

end Sys2Proof.Machine
end

section
/-! PROOFS. OAM-DMA byte by byte, and the controllers' shift registers (R101, R102, R470 to R473). -/

namespace Sys2Proof.Machine

open Sys2Proof.Claims

/-- The place of byte i of a page. -/
theorem w16_ofNat (page : Byte) {i : Nat} (h : i < 256) :
    w16 page (BitVec.ofNat 8 i) = BitVec.ofNat 16 (page.toNat * 256 + i) := by
  have := page.isLt
  apply BitVec.eq_of_toNat_eq
  rw [w16_toNat, BitVec.toNat_ofNat, BitVec.toNat_ofNat]
  omega

/-- The copy from index i on continues the copy of the first i bytes (R101). -/
theorem dmaCopy_dmaBytes (page : Byte) (s : State) (n i : Nat) (h : i + n ≤ 256) :
    dmaCopy page n i (dmaBytes page i s) = dmaBytes page (i + n) s := by
  induction n generalizing i with
  | zero => rfl
  | succ n ih =>
    rw [dmaCopy_succ, w16_ofNat page (by omega), show i + (n + 1) = i + 1 + n by omega]
    exact ih (i + 1) (by omega)

/-- A write of 0x4014 copies the page and stalls the CPU (R101, R102). -/
theorem memWrite_oamDma (page : Byte) (s : State) :
    memWrite 0x4014 page s = { dmaBytes page 256 s with cycles := s.cycles + 514 } := by
  have hcopy : dmaCopy page 256 0 s = dmaBytes page 256 s := dmaCopy_dmaBytes page s 256 0 (Nat.le_refl 256)
  have hcycles : (dmaBytes page 256 s).cycles = s.cycles := hcopy ▸ (dmaCopy_frame page 256 0 s).cycles
  have hwrite : memWrite 0x4014 page s = (dmaCopy page 256 0 s).charge dmaStall := rfl
  rw [hwrite, hcopy, ← hcycles]
  rfl

/-- No read moves the OAM cursor (R80). -/
theorem memRead_oamAddr (a : Addr) (s : State) : (memRead a s).2.ppu.oamAddr = s.ppu.oamAddr := by
  rw [memRead, readTarget_effect]

theorem dmaBytes_oamAddr (page : Byte) (n : Nat) (s : State) : (dmaBytes page n s).ppu.oamAddr = s.ppu.oamAddr := by
  induction n with
  | zero => rfl
  | succ n ih => exact (memRead_oamAddr _ _).trans ih

/-- `s` during a copy whose reads each draw `k` values: OAM replaced, `n` reads drawn. -/
def State.copying (s : State) (k n : Nat) (oam : Memory) : State :=
  { s with ppu := { s.ppu with oam := oam }, draws := s.draws + k * n }

/-- A copy whose every read gives a known byte and draws k values fills OAM with those bytes (R101). -/
theorem dmaBytes_of_reads {page : Byte} {s : State} {f : Nat → Byte} {k : Nat} (hwf : s.ppu.oam.wf = true) (n : Nat)
    (hread : ∀ i < n, ∀ oam, memRead (BitVec.ofNat 16 (page.toNat * 256 + i)) (s.copying k i oam) =
      (f i, s.copying k (i + 1) oam)) :
    ∃ oam : Memory, dmaBytes page n s = s.copying k n oam ∧ oam.wf = true ∧ ∀ i < n, oam.read i = f i := by
  induction n with
  | zero => exact ⟨s.ppu.oam, rfl, hwf, fun i hi => absurd hi (Nat.not_lt_zero i)⟩
  | succ n ih =>
    obtain ⟨oam, hcopy, hoam, hbytes⟩ := ih fun i hi => hread i (Nat.lt_succ_of_lt hi)
    refine ⟨oam.write n (f n), ?_, Memory.write_wf hoam n (f n), fun i hi => ?_⟩
    · rw [dmaBytes, hcopy, hread n (Nat.lt_succ_self n)]
      rfl
    · rw [Memory.read_write hoam]
      split
      next hin => rw [hin]
      next hne => exact hbytes i (by omega)

/-- An undriven page: a read of any of its addresses draws the next open-bus value (R74 to R76). -/
theorem memRead_of_undrivenPage {page : Byte} {s : State} {i : Nat} (hi : i < 256)
    (h : (0x41 ≤ page.toNat ∧ page.toNat ≤ 0x5F) ∨
      (0x60 ≤ page.toNat ∧ page.toNat ≤ 0x7F ∧ s.params.prgRamMode = .stub)) :
    memRead (BitVec.ofNat 16 (page.toNat * 256 + i)) s = openBus s := by
  have hnat : (BitVec.ofNat 16 (page.toNat * 256 + i)).toNat = page.toNat * 256 + i := by
    have := page.isLt
    rw [BitVec.toNat_ofNat]
    omega
  obtain ⟨hlo, hhi⟩ | ⟨hlo, hhi, hmode⟩ := h
  · have hport : ∀ port : Addr, port.toNat < 0x4100 → BitVec.ofNat 16 (page.toNat * 256 + i) ≠ port := by
      intro port hport he
      rw [← he, hnat] at hport
      omega
    exact memRead_io (by omega) (by omega) (hport _ (by decide)) (hport _ (by decide)) s
  · exact memRead_of_stub (by omega) (by omega) hmode

/-- Settles O51: the copy is the fold of bus reads; from memory each gives the page's byte, from nothing a drawn one. -/
theorem oamDmaCopiesPage : Obligations.OamDmaCopiesPage := by
  intro s page
  rw [memWrite_oamDma]
  refine ⟨rfl, dmaBytes_oamAddr page 256 s, fun hwf hpage => ?_, fun hwf hpage => ?_⟩
  · have hbyte : ∀ i < 256, ∃ b, peek s (BitVec.ofNat 16 (page.toNat * 256 + i)) = some b :=
      fun i hi => Option.isSome_iff_exists.mp (hpage i hi)
    choose! f hf using hbyte
    obtain ⟨oam, hcopy, -, hbytes⟩ := dmaBytes_of_reads (page := page) (k := 0) (f := f) hwf 256
      fun i hi oam => by
        simp only [State.copying, Nat.zero_mul, Nat.add_zero]
        exact memRead_of_peek (hf i hi)
    rw [hcopy]
    exact ⟨by rw [State.copying, Nat.zero_mul]; rfl, fun i hi => (hf i hi).trans (congrArg some (hbytes i hi).symm)⟩
  · obtain ⟨oam, hcopy, -, hbytes⟩ := dmaBytes_of_reads (page := page) (k := 1)
      (f := fun i => Config.openBus (s.draws + i)) hwf 256
      fun i hi oam => by
        simp only [State.copying, Nat.one_mul]
        exact memRead_of_undrivenPage hi hpage
    rw [hcopy]
    exact ⟨by rw [State.copying, Nat.one_mul], hbytes⟩

/-- Bit 0 of a controller read is the serial bit (R472). -/
theorem padByte_bit (free : Byte) (serial : Bool) : (padByte free serial).getLsbD 0 = serial := by
  cases serial <;> simp [padByte]

/-- A read of a port as its controller's serial bit and shift (R472). -/
theorem memRead_port1 (s : State) :
    (memRead 0x4016 s).1.getLsbD 0 = (padBit s.pads.strobe s.pads.pad1).1 ∧
      (memRead 0x4016 s).2.pads = { s.pads with pad1 := (padBit s.pads.strobe s.pads.pad1).2 } :=
  ⟨padByte_bit _ _, rfl⟩

theorem memRead_port2 (s : State) :
    (memRead 0x4017 s).1.getLsbD 0 = (padBit s.pads.strobe s.pads.pad2).1 ∧
      (memRead 0x4017 s).2.pads = { s.pads with pad2 := (padBit s.pads.strobe s.pads.pad2).2 } :=
  ⟨padByte_bit _ _, rfl⟩

/-- A controller after n reads with the strobe as it is. -/
def padAfter (strobe : Bool) : Nat → Pad → Pad
  | 0, pad => pad
  | n + 1, pad => padAfter strobe n (padBit strobe pad).2

theorem afterReads_port1 (n : Nat) (s : State) :
    (afterReads 0x4016 n s).pads = { s.pads with pad1 := padAfter s.pads.strobe n s.pads.pad1 } := by
  induction n generalizing s with
  | zero => rfl
  | succ n ih =>
    obtain ⟨-, hpads⟩ := memRead_port1 s
    rw [afterReads, ih, hpads, padAfter]

theorem afterReads_port2 (n : Nat) (s : State) :
    (afterReads 0x4017 n s).pads = { s.pads with pad2 := padAfter s.pads.strobe n s.pads.pad2 } := by
  induction n generalizing s with
  | zero => rfl
  | succ n ih =>
    obtain ⟨-, hpads⟩ := memRead_port2 s
    rw [afterReads, ih, hpads, padAfter]

/-- With the strobe high no read shifts (R472). -/
theorem padAfter_high (n : Nat) (pad : Pad) : padAfter true n pad = pad := by
  induction n with
  | zero => rfl
  | succ n ih => exact ih

/-- With the strobe low each read shifts a 1 in at bit 7 (R472). -/
theorem padAfter_low (n : Nat) (pad : Pad) {i : Nat} (hi : i < 8) :
    (padAfter false n pad).shift.getLsbD i = if n + i < 8 then pad.shift.getLsbD (n + i) else true := by
  induction n generalizing pad i with
  | zero => rw [padAfter, Nat.zero_add, if_pos hi]
  | succ n ih =>
    have hshift : ∀ j < 8, (padBit false pad).2.shift.getLsbD j =
        if j + 1 < 8 then pad.shift.getLsbD (j + 1) else true := by
      intro j hj
      have hbit : (padBit false pad).2.shift.getLsbD j = (pad.shift >>> 1 ||| 0x80).getLsbD j := rfl
      rw [hbit]
      interval_cases j <;> simp
    rw [padAfter, ih _ hi]
    split
    next hlt => rw [hshift _ hlt]; grind
    next hge => rw [if_neg (by omega)]

/-- Settles O52: a high strobe latches the buttons, each read with the strobe low shifts one out; the rest is the
register frame of a step. -/
theorem controllersShiftOutButtons : Obligations.ControllersShiftOutButtons := by
  refine ⟨fun s high low n hhigh hlow => ?_, fun s t h => step_buttons h⟩
  have hlatched : (memWrite 0x4016 high s).pads =
      { strobe := true
        pad1 := { s.pads.pad1 with shift := s.pads.pad1.buttons }
        pad2 := { s.pads.pad2 with shift := s.pads.pad2.buttons } } := if_pos hhigh
  have hreleased : (memWrite 0x4016 low (memWrite 0x4016 high s)).pads =
      { strobe := false
        pad1 := { s.pads.pad1 with shift := s.pads.pad1.buttons }
        pad2 := { s.pads.pad2 with shift := s.pads.pad2.buttons } } := by
    have hstrobe : (memWrite 0x4016 low (memWrite 0x4016 high s)).pads =
      writeStrobe low (memWrite 0x4016 high s).pads := rfl
    rw [hstrobe, hlatched, writeStrobe, hlow]
    rfl
  simp only [(memRead_port1 _).1, (memRead_port2 _).1, afterReads_port1, afterReads_port2, hlatched, hreleased,
    padAfter_high, padBit]
  exact ⟨rfl, rfl, padAfter_low n _ (by decide), padAfter_low n _ (by decide)⟩

end Sys2Proof.Machine
end

section
/-! PROOFS. The state after reset, and the priority of a pixel. -/

namespace Sys2Proof.Machine

open Sys2Proof.Claims

/-- Settles O13, by evaluation of the one state it is about. -/
theorem resetOk : Obligations.ResetOk := by
  refine ⟨by decide +kernel, rfl, rfl, rfl, rfl, rfl, rfl, rfl, rfl, rfl, rfl, rfl, rfl, rfl, rfl, rfl, ?_⟩
  rfl

/-- Settles O57: the composite index is a table of seven small fields. -/
theorem compositePriority : Obligations.CompositePriority := by
  unfold Obligations.CompositePriority
  decide +kernel

end Sys2Proof.Machine
end

section
/-! PROOFS. The fields of the VRAM address under its three updates (R427, R458). -/

namespace Sys2Proof.Machine

open Sys2Proof.Claims

/-- Two bit fields side by side, as a number. -/
theorem toNat_append_add {n m : Nat} (x : BitVec n) (y : BitVec m) :
    (x ++ y).toNat = x.toNat * 2 ^ m + y.toNat := by
  rw [BitVec.toNat_append, ← Nat.shiftLeft_add_eq_or_of_lt y.isLt, Nat.shiftLeft_eq]

/-- A VRAM register by its fields (R458): fine Y, the two nametable bits, coarse Y, coarse X. -/
def vramOf (fy : BitVec 3) (ny nx : BitVec 1) (cy cx : BitVec 5) : VramReg := fy ++ ny ++ nx ++ cy ++ cx

theorem vramOf_toNat (fy : BitVec 3) (ny nx : BitVec 1) (cy cx : BitVec 5) :
    (vramOf fy ny nx cy cx).toNat =
      fy.toNat * 4096 + ny.toNat * 2048 + nx.toNat * 1024 + cy.toNat * 32 + cx.toNat := by
  unfold vramOf
  simp only [toNat_append_add]
  omega

/-- Every register is its five fields. -/
theorem exists_vramOf (v : VramReg) : ∃ fy ny nx cy cx, v = vramOf fy ny nx cy cx := by
  refine ⟨v.extractLsb' 12 3, v.extractLsb' 11 1, v.extractLsb' 10 1, v.extractLsb' 5 5, v.extractLsb' 0 5, ?_⟩
  have := v.isLt
  apply BitVec.eq_of_toNat_eq
  simp only [vramOf_toNat, BitVec.extractLsb'_toNat, Nat.shiftRight_eq_div_pow]
  omega

/-- The fields read as numbers. -/
theorem vramOf_fields (fy : BitVec 3) (ny nx : BitVec 1) (cy cx : BitVec 5) :
    coarseX (vramOf fy ny nx cy cx) = cx.toNat ∧ coarseY (vramOf fy ny nx cy cx) = cy.toNat ∧
      nametableX (vramOf fy ny nx cy cx) = nx.toNat ∧ nametableY (vramOf fy ny nx cy cx) = ny.toNat ∧
      fineY (vramOf fy ny nx cy cx) = fy.toNat := by
  have := fy.isLt; have := ny.isLt; have := nx.isLt; have := cy.isLt; have := cx.isLt
  simp only [coarseX, coarseY, nametableX, nametableY, fineY, vramOf_toNat]
  omega

/-- A bit of a register by its field. -/
theorem vramOf_bit (fy : BitVec 3) (ny nx : BitVec 1) (cy cx : BitVec 5) (i : Nat) :
    (vramOf fy ny nx cy cx).getLsbD i =
      if i < 5 then cx.getLsbD i else if i < 10 then cy.getLsbD (i - 5) else if i < 11 then nx.getLsbD (i - 10)
        else if i < 12 then ny.getLsbD (i - 11) else fy.getLsbD (i - 12) := by
  unfold vramOf
  show BitVec.getLsbD (w := 3 + 1 + 1 + 5 + 5) _ i = _
  simp only [BitVec.getLsbD_append]
  grind

/-- The low five bits are coarse X. -/
theorem vramOf_coarseX_eq (fy : BitVec 3) (ny nx : BitVec 1) (cy cx : BitVec 5) :
    vramOf fy ny nx cy cx &&& 0x001F = vramOf 0 0 0 0 cx := by
  refine BitVec.eq_of_getLsbD_eq fun i hi => ?_
  simp only [BitVec.getLsbD_and, vramOf_bit]
  interval_cases i <;> simp

/-- Coarse X cleared and the horizontal nametable bit flipped. -/
theorem vramOf_nextTable (fy : BitVec 3) (ny nx : BitVec 1) (cy cx : BitVec 5) :
    (vramOf fy ny nx cy cx &&& ~~~(0x001F : VramReg)) ^^^ 0x0400 = vramOf fy ny (~~~nx) cy 0 := by
  refine BitVec.eq_of_getLsbD_eq fun i hi => ?_
  simp only [BitVec.getLsbD_and, BitVec.getLsbD_xor, vramOf_bit]
  interval_cases i <;> simp

/-- `IncCoarseX` by its fields (R427). -/
theorem incCoarseX_vramOf (fy : BitVec 3) (ny nx : BitVec 1) (cy cx : BitVec 5) :
    incCoarseX (vramOf fy ny nx cy cx) =
      if cx = 31 then vramOf fy ny (~~~nx) cy 0 else vramOf fy ny nx cy (cx + 1) := by
  have hlast : vramOf 0 0 0 0 cx = 31 ↔ cx = 31 := by
    simp only [BitVec.toNat_eq, vramOf_toNat]
    simp
  rw [incCoarseX, vramOf_coarseX_eq, vramOf_nextTable]
  simp only [hlast]
  refine ite_congr rfl (fun _ => rfl) fun hcx => ?_
  have := cx.isLt
  have hne : cx.toNat ≠ 31 := fun he => hcx (BitVec.eq_of_toNat_eq he)
  have := (vramOf fy ny nx cy cx).isLt
  have := (vramOf fy ny nx cy (cx + 1)).isLt
  apply BitVec.eq_of_toNat_eq
  simp only [BitVec.toNat_add, vramOf_toNat, BitVec.ofNat_eq_ofNat, BitVec.toNat_ofNat] at *
  omega

/-- The high three bits are fine Y. -/
theorem vramOf_fineY_eq (fy : BitVec 3) (ny nx : BitVec 1) (cy cx : BitVec 5) :
    vramOf fy ny nx cy cx &&& 0x7000 = vramOf fy 0 0 0 0 := by
  refine BitVec.eq_of_getLsbD_eq fun i hi => ?_
  simp only [BitVec.getLsbD_and, vramOf_bit]
  interval_cases i <;> simp

/-- Fine Y cleared. -/
theorem vramOf_clearFineY (fy : BitVec 3) (ny nx : BitVec 1) (cy cx : BitVec 5) :
    vramOf fy ny nx cy cx &&& ~~~(0x7000 : VramReg) = vramOf 0 ny nx cy cx := by
  refine BitVec.eq_of_getLsbD_eq fun i hi => ?_
  simp only [BitVec.getLsbD_and, vramOf_bit]
  interval_cases i <;> simp

/-- Coarse Y shifted down. -/
theorem vramOf_coarseY_eq (fy : BitVec 3) (ny nx : BitVec 1) (cy cx : BitVec 5) :
    (vramOf fy ny nx cy cx >>> 5) &&& 0x1F = vramOf 0 0 0 0 cy := by
  refine BitVec.eq_of_getLsbD_eq fun i hi => ?_
  simp only [BitVec.getLsbD_and, BitVec.getLsbD_ushiftRight, vramOf_bit]
  interval_cases i <;> simp

/-- Coarse Y cleared. -/
theorem vramOf_clearCoarseY (fy : BitVec 3) (ny nx : BitVec 1) (cy cx : BitVec 5) :
    vramOf fy ny nx cy cx &&& ~~~(0x03E0 : VramReg) = vramOf fy ny nx 0 cx := by
  refine BitVec.eq_of_getLsbD_eq fun i hi => ?_
  simp only [BitVec.getLsbD_and, vramOf_bit]
  interval_cases i <;> simp

/-- The vertical nametable bit flipped. -/
theorem vramOf_flipTableY (fy : BitVec 3) (ny nx : BitVec 1) (cy cx : BitVec 5) :
    vramOf fy ny nx cy cx ^^^ 0x0800 = vramOf fy (~~~ny) nx cy cx := by
  refine BitVec.eq_of_getLsbD_eq fun i hi => ?_
  simp only [BitVec.getLsbD_xor, vramOf_bit]
  interval_cases i <;> simp

/-- A coarse Y put in its place. -/
theorem vramOf_putCoarseY (fy : BitVec 3) (ny nx : BitVec 1) (cy cx : BitVec 5) :
    vramOf fy ny nx 0 cx ||| vramOf 0 0 0 0 cy <<< 5 = vramOf fy ny nx cy cx := by
  refine BitVec.eq_of_getLsbD_eq fun i hi => ?_
  simp only [BitVec.getLsbD_or, BitVec.getLsbD_shiftLeft, vramOf_bit]
  interval_cases i <;> simp

/-- A number below 31 in the low five bits steps without a carry. -/
theorem vramOf_succ {cy : BitVec 5} (h : cy ≠ 31) : vramOf 0 0 0 0 cy + 1 = vramOf 0 0 0 0 (cy + 1) := by
  have := cy.isLt
  have hne : cy.toNat ≠ 31 := fun he => h (BitVec.eq_of_toNat_eq he)
  apply BitVec.eq_of_toNat_eq
  simp only [BitVec.toNat_add, vramOf_toNat, BitVec.ofNat_eq_ofNat, BitVec.toNat_ofNat]
  omega

/-- The coarse Y step by its fields (R427). -/
theorem incCoarseY_vramOf (fy : BitVec 3) (ny nx : BitVec 1) (cy cx : BitVec 5) :
    incCoarseY (vramOf fy ny nx cy cx) =
      if cy = 29 then vramOf fy (~~~ny) nx 0 cx else if cy = 31 then vramOf fy ny nx 0 cx
        else vramOf fy ny nx (cy + 1) cx := by
  have hvalue : ∀ c : BitVec 5, vramOf 0 0 0 0 cy = vramOf 0 0 0 0 c ↔ cy = c := fun c => by
    simp only [BitVec.toNat_eq, vramOf_toNat]
    simp
  have h29 : (29 : VramReg) = vramOf 0 0 0 0 29 := rfl
  have h31 : (31 : VramReg) = vramOf 0 0 0 0 31 := rfl
  rw [incCoarseY, vramOf_coarseY_eq, vramOf_flipTableY, vramOf_clearCoarseY, vramOf_clearCoarseY]
  simp only [h29, h31, hvalue]
  refine ite_congr rfl (fun _ => rfl) fun _ => ite_congr rfl (fun _ => rfl) fun hcy => ?_
  rw [vramOf_succ hcy, vramOf_putCoarseY]

/-- `IncY` by its fields (R427). -/
theorem incY_vramOf (fy : BitVec 3) (ny nx : BitVec 1) (cy cx : BitVec 5) :
    incY (vramOf fy ny nx cy cx) =
      if fy = 7 then incCoarseY (vramOf 0 ny nx cy cx) else vramOf (fy + 1) ny nx cy cx := by
  have hlast : vramOf fy 0 0 0 0 = 0x7000 ↔ fy = 7 := by
    simp only [BitVec.toNat_eq, vramOf_toNat]
    simp
    omega
  rw [incY, vramOf_fineY_eq, vramOf_clearFineY]
  simp only [hlast]
  refine ite_congr rfl (fun _ => rfl) fun hfy => ?_
  have := fy.isLt
  have hne : fy.toNat ≠ 7 := fun he => hfy (BitVec.eq_of_toNat_eq he)
  have := (vramOf fy ny nx cy cx).isLt
  have := (vramOf (fy + 1) ny nx cy cx).isLt
  apply BitVec.eq_of_toNat_eq
  simp only [BitVec.toNat_add, vramOf_toNat, BitVec.ofNat_eq_ofNat, BitVec.toNat_ofNat] at *
  omega

/-- `CopyX` by its fields (R427). -/
theorem copyX_vramOf (fy fy' : BitVec 3) (ny nx ny' nx' : BitVec 1) (cy cx cy' cx' : BitVec 5) :
    copyX (vramOf fy ny nx cy cx) (vramOf fy' ny' nx' cy' cx') = vramOf fy ny nx' cy cx' := by
  unfold copyX
  refine BitVec.eq_of_getLsbD_eq fun i hi => ?_
  simp only [BitVec.getLsbD_or, BitVec.getLsbD_and, vramOf_bit]
  interval_cases i <;> simp

/-- A flipped bit as a number. -/
theorem toNat_not_bit (x : BitVec 1) : (~~~x).toNat = 1 - x.toNat := by
  rw [BitVec.toNat_not]

/-- `IncCoarseX` in numbers (R427). -/
theorem incCoarseX_fields (v : VramReg) :
    coarseX (incCoarseX v) = (coarseX v + 1) % 32 ∧
      nametableX (incCoarseX v) = (if coarseX v = 31 then 1 - nametableX v else nametableX v) ∧
      coarseY (incCoarseX v) = coarseY v ∧ nametableY (incCoarseX v) = nametableY v ∧
      fineY (incCoarseX v) = fineY v := by
  obtain ⟨fy, ny, nx, cy, cx, rfl⟩ := exists_vramOf v
  obtain ⟨hcx, hcy, hnx, hny, hfy⟩ := vramOf_fields fy ny nx cy cx
  rw [incCoarseX_vramOf, hcx, hcy, hnx, hny, hfy]
  by_cases hlast : cx = 31
  · subst hlast
    obtain ⟨hcx', hcy', hnx', hny', hfy'⟩ := vramOf_fields fy ny (~~~nx) cy 0
    rw [if_pos rfl, hcx', hcy', hnx', hny', hfy', toNat_not_bit]
    exact ⟨rfl, rfl, rfl, rfl, rfl⟩
  · obtain ⟨hcx', hcy', hnx', hny', hfy'⟩ := vramOf_fields fy ny nx cy (cx + 1)
    have hne : cx.toNat ≠ 31 := fun he => hlast (BitVec.eq_of_toNat_eq he)
    rw [if_neg hlast, if_neg hne, hcx', hcy', hnx', hny', hfy', BitVec.toNat_add]
    exact ⟨rfl, rfl, rfl, rfl, rfl⟩

/-- The coarse Y step in numbers (R427). -/
theorem incCoarseY_fields (fy : BitVec 3) (ny nx : BitVec 1) (cy cx : BitVec 5) :
    let v := incCoarseY (vramOf fy ny nx cy cx)
    coarseY v = (if cy.toNat = 29 ∨ cy.toNat = 31 then 0 else cy.toNat + 1) ∧
      nametableY v = (if cy.toNat = 29 then 1 - ny.toNat else ny.toNat) ∧
      coarseX v = cx.toNat ∧ nametableX v = nx.toNat ∧ fineY v = fy.toNat := by
  have h29 : cy = 29 ↔ cy.toNat = 29 := BitVec.toNat_inj.symm
  have h31 : cy = 31 ↔ cy.toNat = 31 := BitVec.toNat_inj.symm
  simp only [incCoarseY_vramOf, h29, h31]
  split
  next hlast =>
    obtain ⟨hcx, hcy, hnx, hny, hfy⟩ := vramOf_fields fy (~~~ny) nx 0 cx
    rw [hcx, hcy, hnx, hny, hfy, if_pos (.inl hlast), toNat_not_bit]
    exact ⟨rfl, rfl, rfl, rfl, rfl⟩
  next hlast =>
  split
  next hend =>
    obtain ⟨hcx, hcy, hnx, hny, hfy⟩ := vramOf_fields fy ny nx 0 cx
    rw [hcx, hcy, hnx, hny, hfy, if_pos (.inr hend)]
    exact ⟨rfl, rfl, rfl, rfl, rfl⟩
  next hend =>
    obtain ⟨hcx, hcy, hnx, hny, hfy⟩ := vramOf_fields fy ny nx (cy + 1) cx
    have := cy.isLt
    rw [hcx, hcy, hnx, hny, hfy, if_neg (not_or.mpr ⟨hlast, hend⟩),
      BitVec.toNat_add_of_lt (by show cy.toNat + 1 < 32; omega)]
    exact ⟨rfl, rfl, rfl, rfl, rfl⟩

/-- `IncY` in numbers (R427). -/
theorem incY_fields (v : VramReg) :
    fineY (incY v) = (fineY v + 1) % 8 ∧
      coarseY (incY v) =
        (if fineY v < 7 then coarseY v else if coarseY v = 29 ∨ coarseY v = 31 then 0 else coarseY v + 1) ∧
      nametableY (incY v) = (if fineY v = 7 ∧ coarseY v = 29 then 1 - nametableY v else nametableY v) ∧
      coarseX (incY v) = coarseX v ∧ nametableX (incY v) = nametableX v := by
  obtain ⟨fy, ny, nx, cy, cx, rfl⟩ := exists_vramOf v
  obtain ⟨hcx, hcy, hnx, hny, hfy⟩ := vramOf_fields fy ny nx cy cx
  rw [incY_vramOf, hcx, hcy, hnx, hny, hfy]
  by_cases hlast : fy = 7
  · obtain ⟨hcy', hny', hcx', hnx', hfy'⟩ := incCoarseY_fields 0 ny nx cy cx
    have h7 : fy.toNat = 7 := congrArg BitVec.toNat hlast
    rw [if_pos hlast, hfy', hcy', hny', hcx', hnx', h7]
    exact ⟨rfl, rfl, by simp only [true_and], rfl, rfl⟩
  · obtain ⟨hcx', hcy', hnx', hny', hfy'⟩ := vramOf_fields (fy + 1) ny nx cy cx
    have hne : fy.toNat ≠ 7 := fun he => hlast (BitVec.eq_of_toNat_eq he)
    have hlt : fy.toNat < 7 := by have := fy.isLt; omega
    rw [if_neg hlast, hfy', hcy', hny', hcx', hnx', if_pos hlt, if_neg (fun h => hne h.1), BitVec.toNat_add]
    exact ⟨rfl, rfl, rfl, rfl, rfl⟩

/-- Settles O53: each update by its fields, read as numbers. -/
theorem vramAddressUpdates : Obligations.VramAddressUpdates := by
  refine fun v t => ⟨incCoarseX_fields v, incY_fields v, ?_⟩
  obtain ⟨fy, ny, nx, cy, cx, rfl⟩ := exists_vramOf v
  obtain ⟨fy', ny', nx', cy', cx', rfl⟩ := exists_vramOf t
  rw [copyX_vramOf]
  simp only [vramOf_fields, and_self]

end Sys2Proof.Machine
end

section
/-! PROOFS. The background of a line in tile coordinates (R426, R454, R455). -/

namespace Sys2Proof.Machine

open Sys2Proof.Claims

/-- A register as a number by its fields (R458). -/
theorem vram_toNat_fields (v : VramReg) :
    v.toNat = fineY v * 4096 + nametableY v * 2048 + nametableX v * 1024 + coarseY v * 32 + coarseX v ∧
      fineY v < 8 ∧ nametableY v < 2 ∧ nametableX v < 2 ∧ coarseY v < 32 ∧ coarseX v < 32 := by
  have := v.isLt
  simp only [fineY, nametableY, nametableX, coarseY, coarseX]
  omega

/-- The address of the tile index in tile coordinates (R426, R455). -/
theorem tileAddr_eq (v : VramReg) :
    tileAddr v = BitVec.ofNat 14 (0x2000 + (2 * nametableY v + nametableX v) * 0x400 + coarseY v * 32 + coarseX v) := by
  obtain ⟨hv, hfy, hny, hnx, hcy, hcx⟩ := vram_toNat_fields v
  have happend : tileAddr v = (2 : BitVec 2) ++ v.extractLsb' 0 12 := by
    refine BitVec.eq_of_getLsbD_eq fun i hi => ?_
    show _ = BitVec.getLsbD (w := 2 + 12) _ i
    simp only [tileAddr, BitVec.getLsbD_append]
    interval_cases i <;> simp
  apply BitVec.eq_of_toNat_eq
  rw [happend, toNat_append_add, BitVec.extractLsb'_toNat, BitVec.toNat_ofNat, Nat.shiftRight_zero, hv]
  simp only [BitVec.ofNat_eq_ofNat, BitVec.toNat_ofNat]
  omega

/-- Where a tile's palette numbers stand, in tile coordinates (R426, R455). -/
theorem attributeAddr_eq (v : VramReg) :
    attributeAddr v = BitVec.ofNat 14
      (0x23C0 + (2 * nametableY v + nametableX v) * 0x400 + coarseY v / 4 * 8 + coarseX v / 4) := by
  have happend : attributeAddr v =
      (2 : BitVec 2) ++ v.extractLsb' 10 2 ++ (15 : BitVec 4) ++ v.extractLsb' 7 3 ++ v.extractLsb' 2 3 := by
    refine BitVec.eq_of_getLsbD_eq fun i hi => ?_
    show _ = BitVec.getLsbD (w := 2 + 2 + 4 + 3 + 3) _ i
    simp only [attributeAddr, BitVec.getLsbD_append]
    interval_cases i <;> simp
  have htable : v.toNat / 2 ^ 10 % 2 ^ 2 = 2 * nametableY v + nametableX v := by
    simp only [nametableY, nametableX]
    omega
  have hrow : v.toNat / 2 ^ 7 % 2 ^ 3 = coarseY v / 4 := by
    simp only [coarseY]
    omega
  have hcol : v.toNat / 2 ^ 2 % 2 ^ 3 = coarseX v / 4 := by
    simp only [coarseX]
    omega
  apply BitVec.eq_of_toNat_eq
  rw [happend]
  simp only [toNat_append_add, BitVec.extractLsb'_toNat, BitVec.ofNat_eq_ofNat, BitVec.toNat_ofNat,
    Nat.shiftRight_eq_div_pow, htable, hrow, hcol]
  omega

/-- The place of a tile's palette number in that byte (R426, R455). -/
theorem attributeShift_eq (v : VramReg) : attributeShift v = coarseY v / 2 % 2 * 4 + coarseX v / 2 % 2 * 2 := by
  have happend : ((v >>> 4) &&& 0x04) ||| (v &&& 0x02) =
      (0 : BitVec 12) ++ v.extractLsb' 6 1 ++ v.extractLsb' 1 1 ++ (0 : BitVec 1) := by
    refine BitVec.eq_of_getLsbD_eq fun i hi => ?_
    show _ = BitVec.getLsbD (w := 12 + 1 + 1 + 1) _ i
    simp only [BitVec.getLsbD_append]
    interval_cases i <;> simp
  have hrow : v.toNat / 2 ^ 6 % 2 ^ 1 = coarseY v / 2 % 2 := by
    simp only [coarseY]
    omega
  have hcol : v.toNat / 2 ^ 1 % 2 ^ 1 = coarseX v / 2 % 2 := by
    simp only [coarseX]
    omega
  rw [attributeShift, happend]
  simp only [toNat_append_add, BitVec.extractLsb'_toNat, BitVec.ofNat_eq_ofNat, BitVec.toNat_ofNat,
    Nat.shiftRight_eq_div_pow, hrow, hcol]
  omega

/-- The address of the low plane of a tile's row (R426). -/
theorem backgroundPattern_eq (ppu : Ppu) (tile : Byte) :
    backgroundPattern ppu tile =
      BitVec.ofNat 14 ((if ppu.ctrl.getLsbD 4 then 0x1000 else 0) + tile.toNat * 16 + fineY ppu.v) := by
  have hrow : (ppu.v >>> 12) &&& 7 = BitVec.ofNat 15 (fineY ppu.v) := by
    have := ppu.v.isLt
    apply BitVec.eq_of_toNat_eq
    rw [BitVec.toNat_and, BitVec.toNat_ushiftRight, Nat.shiftRight_eq_div_pow, BitVec.toNat_ofNat, fineY]
    have h7 : (7 : VramReg).toNat = 2 ^ 3 - 1 := rfl
    rw [h7, Nat.and_two_pow_sub_one_eq_mod]
    omega
  have hfy : fineY ppu.v < 8 := (vram_toNat_fields ppu.v).2.1
  have := tile.isLt
  rw [backgroundPattern, hrow]
  apply BitVec.eq_of_toNat_eq
  split <;>
    simp only [BitVec.toNat_add, BitVec.toNat_mul, BitVec.toNat_setWidth, BitVec.natCast_eq_ofNat,
      BitVec.toNat_ofNat] <;>
    omega

/-- A pixel of two planes as a number (R454). -/
theorem tilePixel_eq (l h : Byte) (b : Nat) :
    tilePixel l h b = BitVec.ofNat 2 (2 * (h.getLsbD (7 - b)).toNat + (l.getLsbD (7 - b)).toNat) := by
  unfold tilePixel
  cases h.getLsbD (7 - b) <;> cases l.getLsbD (7 - b) <;> rfl

/-- The tile at v in tile coordinates (R426, R455). -/
theorem backgroundTile_eq (cart : Cartridge) (ppu : Ppu) :
    backgroundTile cart ppu = (List.range 8).map
      (tilePixelAt cart ppu (2 * nametableY ppu.v + nametableX ppu.v) (coarseX ppu.v) (coarseY ppu.v)
        (fineY ppu.v)) := by
  unfold backgroundTile
  refine List.map_congr_left fun b _ => ?_
  simp only [tilePixelAt, tilePixel_eq, tileAddr_eq, attributeAddr_eq, attributeShift_eq, backgroundPattern_eq]
  rw [← BitVec.ofNat_toNat, BitVec.toNat_ushiftRight, Nat.shiftRight_eq_div_pow, BitVec.ofNat_add (y := 8)]
  rfl

/-- v before the tile j to the right of it: coarse X steps into the next nametable past column 31 (R426, R427). -/
theorem incCoarseXs_fields {v : VramReg} {j : Nat} (h : coarseX v + j < 64) :
    coarseX (incCoarseXs j v) = (coarseX v + j) % 32 ∧
      nametableX (incCoarseXs j v) = (if coarseX v + j < 32 then nametableX v else 1 - nametableX v) ∧
      coarseY (incCoarseXs j v) = coarseY v ∧ nametableY (incCoarseXs j v) = nametableY v ∧
      fineY (incCoarseXs j v) = fineY v := by
  induction j generalizing v with
  | zero =>
    have hcx : coarseX v < 32 := Nat.mod_lt _ (by decide)
    rw [incCoarseXs, Nat.add_zero, if_pos hcx, Nat.mod_eq_of_lt hcx]
    exact ⟨rfl, rfl, rfl, rfl, rfl⟩
  | succ j ih =>
    obtain ⟨hcx, hnx, hcy, hny, hfy⟩ := incCoarseX_fields v
    have hlt : coarseX v < 32 := Nat.mod_lt _ (by decide)
    have hbit : nametableX v < 2 := Nat.mod_lt _ (by decide)
    obtain ⟨hcx', hnx', hcy', hny', hfy'⟩ := ih (v := incCoarseX v) (by omega)
    rw [incCoarseXs, hcx', hnx', hcy', hny', hfy', hcx, hnx, hcy, hny, hfy]
    refine ⟨by omega, ?_, rfl, rfl, rfl⟩
    grind

/-- Pixel k of the tiles from v on: pixel k mod 8 of the tile k / 8 steps to the right (R426). -/
theorem backgroundTiles_getElem? (cart : Cartridge) {n k : Nat} (ppu : Ppu) (h : k < 8 * n) :
    (backgroundTiles cart n ppu)[k]? =
      (backgroundTile cart { ppu with v := incCoarseXs (k / 8) ppu.v })[k % 8]? := by
  induction n generalizing k ppu with
  | zero => omega
  | succ n ih =>
    rw [backgroundTiles]
    by_cases hk : k < 8
    · rw [List.getElem?_append_left (by rwa [backgroundTile_length]), Nat.div_eq_of_lt hk, Nat.mod_eq_of_lt hk]
      rfl
    · have hdiv : k / 8 = (k - 8) / 8 + 1 := by omega
      have hmod : k % 8 = (k - 8) % 8 := by omega
      rw [List.getElem?_append_right (by rw [backgroundTile_length]; omega), backgroundTile_length,
        ih _ (by omega), hdiv, hmod]
      rfl

/-- The pixel of the tiles at a column right of v, in tile coordinates (R426, R455). -/
theorem backgroundTiles_eq_tilePixelAt (cart : Cartridge) (ppu : Ppu) {k : Nat} (h : k < 264) :
    (backgroundTiles cart 33 ppu)[k]? =
      some (tilePixelAt cart ppu
        (2 * nametableY ppu.v + (if coarseX ppu.v + k / 8 < 32 then nametableX ppu.v else 1 - nametableX ppu.v))
        ((coarseX ppu.v + k / 8) % 32) (coarseY ppu.v) (fineY ppu.v) (k % 8)) := by
  have hlt : coarseX ppu.v < 32 := Nat.mod_lt _ (by decide)
  obtain ⟨hcx, hnx, hcy, hny, hfy⟩ := incCoarseXs_fields (v := ppu.v) (j := k / 8) (by omega)
  rw [backgroundTiles_getElem? cart ppu (by omega), backgroundTile_eq, List.getElem?_map,
    List.getElem?_range (Nat.mod_lt _ (by decide)), hcx, hnx, hcy, hny, hfy]
  rfl

/-- A list whose first eight elements are mapped, by index. -/
theorem getElem?_mapLeftEight {α : Type} (f : α → α) (l : List α) (h : 8 ≤ l.length) (k : Nat) :
    ((l.take 8).map f ++ l.drop 8)[k]? = if k < 8 then l[k]?.map f else l[k]? := by
  have hlength : ((l.take 8).map f).length = 8 := by rw [List.length_map, List.length_take, Nat.min_eq_left h]
  split
  next hk => rw [List.getElem?_append_left (hk.trans_eq hlength.symm), List.getElem?_map, List.getElem?_take_of_lt hk]
  next hk =>
    rw [List.getElem?_append_right (hlength.trans_le (Nat.not_lt.mp hk)), hlength, List.getElem?_drop,
      Nat.add_sub_cancel' (Nat.not_lt.mp hk)]

/-- Settles O54: a column is a pixel of a tile to the right of v, masked in the left eight columns. -/
theorem backgroundPixels : Obligations.BackgroundPixels := by
  intro cart ppu sx hsx
  have hx := ppu.x.isLt
  have hpixel := backgroundTiles_eq_tilePixelAt cart ppu (k := sx + ppu.x.toNat) (by omega)
  rw [Nat.add_comm sx, ← List.getElem?_drop, ← List.getElem?_take_of_lt hsx, Nat.add_comm _ sx] at hpixel
  have hlength : 8 ≤ (((backgroundTiles cart 33 ppu).drop ppu.x.toNat).take 256).length := by
    rw [List.length_take, List.length_drop, backgroundTiles_length]
    omega
  refine ⟨fun hshown hmask => ?_, fun hshown hmask hleft => ?_, fun hhidden => ?_⟩
  · rw [backgroundRow, if_pos hshown]
    by_cases hunmasked : ppu.mask.getLsbD 1 = true
    · rw [if_pos hunmasked, hpixel]
    · rw [if_neg hunmasked, getElem?_mapLeftEight _ _ hlength, if_neg (Nat.not_lt.mpr (hmask.resolve_left hunmasked)),
        hpixel]
  · rw [backgroundRow, if_pos hshown, if_neg (Bool.eq_false_iff.mp hmask), getElem?_mapLeftEight _ _ hlength,
      if_pos hleft, hpixel]
    rfl
  · rw [backgroundRow, if_neg (Bool.eq_false_iff.mp hhidden)]
    exact List.getElem?_replicate_of_lt hsx

end Sys2Proof.Machine
end

section
/-! PROOFS. The sprites of a line and their pixels (R428, R429, R454). -/

namespace Sys2Proof.Machine

open Sys2Proof.Claims

/-- The first k numbers below N that pass a test: those with fewer than k before them. -/
theorem mem_take_filter_range (p : Nat → Bool) (k N n : Nat) :
    n ∈ ((List.range N).filter p).take k ↔ n < N ∧ p n = true ∧ ((List.range n).filter p).length < k := by
  induction N with
  | zero => simp
  | succ N ih =>
    rw [List.range_succ, List.filter_append, List.take_append, List.mem_append, ih]
    by_cases hN : n = N
    · subst hN
      have hlast : ∀ j, n ∈ ([n].filter p).take j ↔ p n = true ∧ 0 < j := fun j => by
        cases j <;> cases hp : p n <;> simp [hp]
      simp only [hlast, Nat.lt_irrefl, false_and, false_or, Nat.lt_succ_self, true_and, Nat.sub_pos_iff_lt]
    · have hnot : n ∉ ([N].filter p).take (k - ((List.range N).filter p).length) := fun h =>
        hN (List.mem_singleton.mp (List.mem_of_mem_filter (List.mem_of_mem_take h)))
      simp only [hnot, or_false]
      have hlt : n < N + 1 ↔ n < N := by omega
      rw [hlt]

/-- The row of sprite n that a line shows. -/
def rowOf (ppu : Ppu) (sl n : Nat) : Nat := sl - ((ppu.oam.read (4 * n)).toNat + 1)

/-- A sprite of OAM has a row on a line exactly when it shows there (R428). -/
theorem spriteRowOn_eq (ppu : Ppu) (sl : Nat) {n : Nat} (h : n < 64) :
    spriteRowOn ppu sl n = if spriteOn ppu sl n then some (rowOf ppu sl n) else none := by
  have htop : oamByte ppu n 0 = ppu.oam.read (4 * n) := rfl
  have hiff : (ppu.oam.read (4 * n)).toNat + 1 ≤ sl ∧ sl - ((ppu.oam.read (4 * n)).toNat + 1) < spriteHeight ppu ↔
      spriteOn ppu sl n = true := by
    simp only [spriteOn, spriteHeight, Bool.and_eq_true, decide_eq_true_eq]
    omega
  unfold spriteRowOn
  simp only [htop, hiff]
  rfl

/-- The numbers of the sprites of a line, in OAM order. -/
def shownSprites (ppu : Ppu) (sl : Nat) : List Nat := ((List.range 64).filter (spriteOn ppu sl)).take 8

/-- The sprites of a line are the first eight that show, each with its row (R428). -/
theorem spritesOn_eq (ppu : Ppu) (sl : Nat) :
    spritesOn ppu sl = (shownSprites ppu sl).map fun n => (n, rowOf ppu sl n) := by
  have hfilter : ((List.range 64).filterMap fun n => (spriteRowOn ppu sl n).map fun row => (n, row)) =
      ((List.range 64).filter (spriteOn ppu sl)).map fun n => (n, rowOf ppu sl n) := by
    rw [← List.filterMap_eq_map, ← List.filterMap_eq_filter, List.filterMap_filterMap]
    refine List.filterMap_congr fun n hn => ?_
    rw [spriteRowOn_eq ppu sl (List.mem_range.mp hn)]
    cases h : spriteOn ppu sl n <;> simp [Option.guard, h]
  rw [spritesOn, hfilter, ← List.map_take, shownSprites]

theorem mem_shownSprites (ppu : Ppu) (sl n : Nat) : n ∈ shownSprites ppu sl ↔ spriteShown ppu sl n = true := by
  rw [shownSprites, mem_take_filter_range, spriteShown, Bool.and_eq_true, decide_eq_true_eq]
  refine and_iff_right_of_imp fun h => ?_
  obtain ⟨hon, -⟩ := h
  simp only [spriteOn, Bool.and_eq_true, decide_eq_true_eq] at hon
  omega

theorem shownSprites_pairwise (ppu : Ppu) (sl : Nat) : (shownSprites ppu sl).Pairwise (· < ·) :=
  (List.pairwise_lt_range.filter _).take

/-- Settles O55: the list is the first eight of the numbers below 64 that show, each with its row. -/
theorem firstEightSprites : Obligations.FirstEightSprites := by
  intro ppu sl
  rw [spritesOn_eq]
  refine ⟨?_, ?_, fun n row => ?_⟩
  · rw [List.length_map, shownSprites]
    exact List.length_take_le _ _
  · exact List.pairwise_map.mpr (shownSprites_pairwise ppu sl)
  · simp only [List.mem_map, mem_shownSprites, Prod.mk.injEq, spriteShown, Bool.and_eq_true, decide_eq_true_eq]
    constructor
    · rintro ⟨m, ⟨hon, hfew⟩, rfl, rfl⟩
      exact ⟨hon, rfl, hfew⟩
    · rintro ⟨hon, rfl, hfew⟩
      exact ⟨n, ⟨hon, hfew⟩, rfl, rfl⟩

/-- The pattern row of sprite n that a line shows, counted from the other end under vertical flip (R429). -/
def patternRow (ppu : Ppu) (sl n : Nat) : Nat :=
  if (ppu.oam.read (4 * n + 2)).getLsbD 7 then spriteHeight ppu - 1 - rowOf ppu sl n else rowOf ppu sl n

theorem patternRow_lt {ppu : Ppu} {sl n : Nat} (h : spriteOn ppu sl n = true) :
    patternRow ppu sl n < spriteHeight ppu := by
  have hheight : spriteHeight ppu = if ppu.ctrl.getLsbD 5 then 16 else 8 := rfl
  simp only [spriteOn, ← hheight, Bool.and_eq_true, decide_eq_true_eq] at h
  unfold patternRow rowOf
  split <;> omega

/-- The address of a sprite's pattern row as a number (R428, R429). -/
theorem spritePatternAddr_eq (ppu : Ppu) (sl : Nat) {n : Nat} (h : spriteOn ppu sl n = true) :
    spritePatternAddr ppu (oamByte ppu n 1) (oamByte ppu n 2) (rowOf ppu sl n) =
      BitVec.ofNat 14 (spriteRowAddr ppu sl n) := by
  have hrow := patternRow_lt h
  have hpattern : spritePatternAddr ppu (oamByte ppu n 1) (oamByte ppu n 2) (rowOf ppu sl n) =
      let tile := (ppu.oam.read (4 * n + 1)).toNat
      let r := patternRow ppu sl n
      if ppu.ctrl.getLsbD 5 then BitVec.ofNat 14 (tile % 2 * 0x1000 + (tile / 2 * 2 + r / 8) * 16 + r % 8)
      else BitVec.ofNat 14 ((if ppu.ctrl.getLsbD 3 then 0x1000 else 0) + tile * 16 + r) := rfl
  have haddr : spriteRowAddr ppu sl n =
      let tile := (ppu.oam.read (4 * n + 1)).toNat
      let r := patternRow ppu sl n
      if ppu.ctrl.getLsbD 5 then
        (if tile % 2 = 1 then 0x1000 else 0) + (if r < 8 then tile - tile % 2 else tile - tile % 2 + 1) * 16 + r % 8
      else (if ppu.ctrl.getLsbD 3 then 0x1000 else 0) + tile * 16 + r := rfl
  rw [hpattern, haddr]
  generalize patternRow ppu sl n = r at hrow
  generalize (ppu.oam.read (4 * n + 1)).toNat = tile
  by_cases htall : ppu.ctrl.getLsbD 5 = true
  · simp only [spriteHeight, htall, if_true] at hrow ⊢
    congr 1
    split <;> split <;> omega
  · simp only [htall]
    rfl

/-- The pixel of a sprite in numbers (R428, R454). -/
theorem LineSprite.pixelAt_eq (sp : LineSprite) (ppu : Ppu) (sx : Nat) :
    sp.pixelAt ppu sx =
      let left := sp.left.toNat
      let bit := if sp.attr.getLsbD 6 then sx - left else 7 - (sx - left)
      let value := 2 * (sp.high.getLsbD bit).toNat + (sp.low.getLsbD bit).toNat
      if sx < left ∨ left + 7 < sx ∨ value = 0 ∨ (ppu.mask.getLsbD 2 = false ∧ sx < 8) then none
      else some
        { bits := BitVec.ofNat 2 value, pal := BitVec.ofNat 2 (sp.attr.toNat % 4), behind := sp.attr.getLsbD 5
          isZero := sp.isZero } := by
  have hpal : sp.attr.setWidth 2 = BitVec.ofNat 2 (sp.attr.toNat % 4) := by
    apply BitVec.eq_of_toNat_eq
    rw [BitVec.toNat_setWidth, BitVec.toNat_ofNat]
    omega
  unfold LineSprite.pixelAt
  dsimp only
  by_cases hcol : sp.left.toNat ≤ sx ∧ sx - sp.left.toNat < 8
  · obtain ⟨hleft, hright⟩ := hcol
    have hbit : 7 - (if sp.attr.getLsbD 6 = true then 7 - (sx - sp.left.toNat) else sx - sp.left.toNat) =
        if sp.attr.getLsbD 6 = true then sx - sp.left.toNat else 7 - (sx - sp.left.toNat) := by split <;> omega
    rw [tilePixel_eq, hbit, hpal]
    generalize (if sp.attr.getLsbD 6 = true then sx - sp.left.toNat else 7 - (sx - sp.left.toNat)) = bit
    have hvalue : BitVec.ofNat 2 (2 * (sp.high.getLsbD bit).toNat + (sp.low.getLsbD bit).toNat) ≠ 0 ↔
        2 * (sp.high.getLsbD bit).toNat + (sp.low.getLsbD bit).toNat ≠ 0 := by
      cases sp.high.getLsbD bit <;> cases sp.low.getLsbD bit <;> decide
    have hnot : ¬ sx < sp.left.toNat ∧ ¬ sp.left.toNat + 7 < sx := by omega
    simp only [hleft, hright, hvalue, hnot, true_and, false_or]
    grind
  · have hout : sx < sp.left.toNat ∨ sp.left.toNat + 7 < sx := by omega
    rw [if_neg fun h => hcol ⟨h.1, h.2.1⟩, if_pos (or_assoc.mp (.inl hout))]

/-- The pixel of a sprite that shows on the line (R428, R454). -/
theorem lineSprite_pixelAt (cart : Cartridge) (ppu : Ppu) (sl : Nat) {n : Nat} (sx : Nat)
    (h : spriteOn ppu sl n = true) :
    (lineSprite cart ppu n (rowOf ppu sl n)).pixelAt ppu sx = spritePixelAt cart ppu sl n sx := by
  have hhigh : BitVec.ofNat 14 (spriteRowAddr ppu sl n) + 8 = BitVec.ofNat 14 (spriteRowAddr ppu sl n + 8) :=
    (BitVec.ofNat_add _ 8).symm
  rw [LineSprite.pixelAt_eq, lineSprite, spritePatternAddr_eq ppu sl h, hhigh]
  rfl

/-- The first element of a rising list that has a value: the least one. -/
theorem findSome?_eq_some_iff_least {α : Type} {f : Nat → Option α} {l : List Nat} (h : l.Pairwise (· < ·)) {a : α} :
    l.findSome? f = some a ↔ ∃ n ∈ l, f n = some a ∧ ∀ m ∈ l, m < n → f m = none := by
  induction l with
  | nil => simp
  | cons k l ih =>
    obtain ⟨hk, hl⟩ := List.pairwise_cons.mp h
    cases hfk : f k with
    | some b =>
      rw [List.findSome?_cons, hfk]
      constructor
      · rintro ⟨rfl⟩
        refine ⟨k, List.mem_cons_self, hfk, fun m hm hlt => ?_⟩
        obtain rfl | hm := List.mem_cons.mp hm
        · exact absurd hlt (Nat.lt_irrefl _)
        · exact absurd hlt (Nat.lt_asymm (hk m hm))
      · rintro ⟨n, hn, hfn, hleast⟩
        obtain rfl | hn := List.mem_cons.mp hn
        · exact hfk.symm.trans hfn
        · have hnone := hleast k List.mem_cons_self (hk n hn)
          rw [hfk] at hnone
          cases hnone
    | none =>
      rw [List.findSome?_cons, hfk]
      refine (ih hl).trans ⟨?_, ?_⟩
      · rintro ⟨n, hn, hfn, hleast⟩
        refine ⟨n, List.mem_cons_of_mem k hn, hfn, fun m hm hlt => ?_⟩
        obtain rfl | hm := List.mem_cons.mp hm
        · exact hfk
        · exact hleast m hm hlt
      · rintro ⟨n, hn, hfn, hleast⟩
        obtain rfl | hn := List.mem_cons.mp hn
        · rw [hfk] at hfn
          cases hfn
        · exact ⟨n, hn, hfn, fun m hm => hleast m (List.mem_cons_of_mem k hm)⟩

/-- A search depends on its function at the elements of the list alone. -/
theorem findSome?_congr_mem {α β : Type} {f g : α → Option β} {l : List α} (h : ∀ a ∈ l, f a = g a) :
    l.findSome? f = l.findSome? g := by
  induction l with
  | nil => rfl
  | cons a l ih =>
    obtain ⟨ha, hl⟩ := List.forall_mem_cons.mp h
    rw [List.findSome?_cons, List.findSome?_cons, ha, ih hl]

/-- A column of the sprite row with sprites shown: the first of the line's sprites that has a pixel there (R428). -/
theorem spriteRow_getElem? (cart : Cartridge) (ppu : Ppu) (sl : Nat) {sx : Nat} (hsx : sx < 256)
    (hshown : ppu.mask.getLsbD 4 = true) :
    (spriteRow cart ppu sl)[sx]? =
      some ((shownSprites ppu sl).findSome? fun n => spritePixelAt cart ppu sl n sx) := by
  have hpixel : ∀ n ∈ shownSprites ppu sl,
      (lineSprite cart ppu n (rowOf ppu sl n)).pixelAt ppu sx = spritePixelAt cart ppu sl n sx := fun n hn => by
    have hspriteShown := (mem_shownSprites ppu sl n).mp hn
    rw [spriteShown, Bool.and_eq_true] at hspriteShown
    exact lineSprite_pixelAt cart ppu sl sx hspriteShown.1
  rw [spriteRow, List.getElem?_map, List.getElem?_range hsx, lineSprites, if_pos hshown, spritesOn_eq, List.map_map,
    Option.map_some, List.findSome?_map]
  exact congrArg some (findSome?_congr_mem hpixel)

/-- A shown sprite is an entry of OAM. -/
theorem lt_of_spriteShown {ppu : Ppu} {sl n : Nat} (h : spriteShown ppu sl n = true) : n < 64 := by
  simp only [spriteShown, spriteOn, Bool.and_eq_true, decide_eq_true_eq] at h
  omega

/-- Settles O56: a column is the pixel of the least of the line's sprites that has one there. -/
theorem spritePixels : Obligations.SpritePixels := by
  refine fun cart ppu sl => ⟨spriteRow_length cart ppu sl, fun sx hsx => ⟨fun hhidden => ?_, fun hshown =>
    ⟨?_, fun p => ?_⟩⟩⟩
  · rw [spriteRow, List.getElem?_map, List.getElem?_range hsx, lineSprites, if_neg (Bool.eq_false_iff.mp hhidden)]
    rfl
  · rw [spriteRow_getElem? cart ppu sl hsx hshown, Option.some_inj, List.findSome?_eq_none_iff]
    simp only [mem_shownSprites]
    exact ⟨fun h n _ hn => h n hn, fun h n hn => h n (lt_of_spriteShown hn) hn⟩
  · rw [spriteRow_getElem? cart ppu sl hsx hshown, Option.some_inj,
      findSome?_eq_some_iff_least (shownSprites_pairwise ppu sl)]
    simp only [mem_shownSprites]
    constructor
    · rintro ⟨n, hn, hp, hleast⟩
      exact ⟨n, lt_of_spriteShown hn, hn, hp, fun m hlt hm => hleast m hm hlt⟩
    · rintro ⟨n, -, hn, hp, hleast⟩
      exact ⟨n, hn, hp, fun m hm hlt => hleast m hlt hm⟩

end Sys2Proof.Machine
end

section
/-! PROOFS. A rendered line in the frame, the sprite-zero hit, and the bytes of the frame (R425, R430 to R433, R456,
R457). -/

namespace Sys2Proof.Machine

open Sys2Proof.Claims

/-- The row of a visible line (R456). -/
theorem frameRow_eq_some {h : FbHeight} {sl row : Nat} (hsl : sl < 240) :
    frameRow h sl = some row ↔ shownIn h sl row := by
  unfold frameRow shownIn
  cases h with
  | h240 => simp only [if_pos hsl, Option.some_inj, true_and, reduceCtorEq, false_and, or_false, eq_comm]
  | h224 =>
    simp only [Option.ite_none_right_eq_some, Option.some_inj, reduceCtorEq, false_and, true_and, false_or, and_assoc,
      @eq_comm _ row]

/-- A line put in the frame changes the frame alone. -/
theorem putLine_ppu (h : FbHeight) (sl : Nat) (line : List Colour) (ppu : Ppu) :
    putLine h sl line ppu = { ppu with fb := (putLine h sl line ppu).fb } := by
  unfold putLine
  split <;> rfl

/-- The pixels of the line's own row (R456). -/
theorem framePixel_putLine_of_shown {h : FbHeight} {sl row : Nat} (hsl : sl < 240) (hrow : shownIn h sl row)
    (colours : List Colour) (ppu : Ppu) (sx : Nat) : framePixel (putLine h sl colours ppu) row sx = colours[sx]? := by
  rw [putLine, (frameRow_eq_some hsl).mpr hrow, framePixel, keyedGet_set_same, Option.bind_some, List.head?_drop]

/-- The pixels of every other row (R456). -/
theorem framePixel_putLine_of_not_shown {h : FbHeight} {sl row : Nat} (hsl : sl < 240) (hrow : ¬ shownIn h sl row)
    (line : List Colour) (ppu : Ppu) (sx : Nat) :
    framePixel (putLine h sl line ppu) row sx = framePixel ppu row sx := by
  unfold putLine
  split
  next r hr =>
    have hne : row ≠ r := fun he => hrow ((frameRow_eq_some hsl).mp (he ▸ hr))
    rw [framePixel, keyedGet_set_other _ _ hne, framePixel]
  next => rfl

/-- A column of the line with its pixels. -/
theorem lineColumns_getElem? (cart : Cartridge) (ppu : Ppu) (sl k : Nat) (e : Nat × BgPixel × Option SpritePixel) :
    (lineColumns cart ppu sl)[k]? = some e ↔
      k < 256 ∧ e.1 = k ∧ (backgroundRow cart ppu)[k]? = some e.2.1 ∧ (spriteRow cart ppu sl)[k]? = some e.2.2 := by
  obtain ⟨n, bg, sp⟩ := e
  have hrange : (List.range 256)[k]? = some n ↔ k < 256 ∧ n = k := by
    by_cases hk : k < 256
    · rw [List.getElem?_range hk, Option.some_inj, eq_comm, and_iff_right hk]
    · rw [List.getElem?_eq_none (by rw [List.length_range]; omega)]
      simp [hk]
  simp only [lineColumns, List.getElem?_zip_eq_some, hrange, and_assoc]

/-- The pixel that sets the sprite-zero hit (R431). -/
theorem spriteZeroAt_iff {needsBg : Bool} {sx : Nat} {bg : BgPixel} {sp : Option SpritePixel} :
    spriteZeroAt needsBg sx bg sp = true ↔
      ∃ p, sp = some p ∧ p.isZero = true ∧ (needsBg = true → bg.1 ≠ 0 ∧ sx ≠ 255) := by
  cases sp with
  | none => simp [spriteZeroAt]
  | some p => cases needsBg <;> simp [spriteZeroAt]

/-- The columns that set the sprite-zero hit (R431). -/
theorem lineColumns_any_spriteZero (needsBg : Bool) (cart : Cartridge) (ppu : Ppu) (sl : Nat) :
    ((lineColumns cart ppu sl).any fun e => spriteZeroAt needsBg e.1 e.2.1 e.2.2) = true ↔
      ∃ k bg sp, k < 256 ∧ (backgroundRow cart ppu)[k]? = some bg ∧ (spriteRow cart ppu sl)[k]? = some (some sp) ∧
        sp.isZero = true ∧ (needsBg = true → bg.1 ≠ 0 ∧ k ≠ 255) := by
  rw [List.any_eq_true]
  constructor
  · rintro ⟨⟨n, bg, sp⟩, he, hzero⟩
    obtain ⟨k, hk⟩ := List.mem_iff_getElem?.mp he
    obtain ⟨hlt, rfl, hbg, hsp⟩ := (lineColumns_getElem? cart ppu sl k _).mp hk
    obtain ⟨p, rfl, hp⟩ := spriteZeroAt_iff.mp hzero
    exact ⟨_, bg, p, hlt, hbg, hsp, hp⟩
  · rintro ⟨k, bg, p, hlt, hbg, hsp, hp⟩
    have hcolumn := (lineColumns_getElem? cart ppu sl k (k, bg, some p)).mpr ⟨hlt, rfl, hbg, hsp⟩
    exact ⟨(k, bg, some p), List.mem_iff_getElem?.mpr ⟨k, hcolumn⟩, spriteZeroAt_iff.mpr ⟨p, rfl, hp⟩⟩

/-- The colour of the backdrop (R433). -/
theorem colourOf_zero (cart : Cartridge) (ppu : Ppu) : colourOf cart ppu 0 = (ppu.palette.read 0).setWidth 6 := by
  have hsix : ∀ b : Byte, (b &&& 0x3F).setWidth 6 = b.setWidth 6 := by decide +kernel
  exact hsix (ppu.palette.read 0)

/-- The colour of a composite index as a read of the palette's addresses (R432). -/
theorem colourOf_eq (cart : Cartridge) (ppu : Ppu) (i : BitVec 5) :
    colourOf cart ppu i = (ppuRead cart ppu (BitVec.ofNat 14 (0x3F00 + i.toNat))).setWidth 6 := by
  rw [colourOf, BitVec.ofNat_add, BitVec.ofNat_toNat]
  rfl

theorem renderLine_of_hidden {ppu : Ppu} (h : rendering ppu = false) (params : Params) (cart : Cartridge) (sl : Nat) :
    renderLine params cart sl ppu = putLine params.fbHeight sl (List.replicate 256 (colourOf cart ppu 0)) ppu := by
  rw [renderLine, h]
  rfl

theorem renderLine_of_rendering {ppu : Ppu} (h : rendering ppu = true) (params : Params) (cart : Cartridge) (sl : Nat) :
    renderLine params cart sl ppu =
      putLine params.fbHeight sl ((lineColumns cart ppu sl).map fun e => colourOf cart ppu (composite e.2.1 e.2.2))
        { ppu with
          s0hit := ppu.s0hit ||
            (lineColumns cart ppu sl).any fun e => spriteZeroAt params.s0NeedsBg e.1 e.2.1 e.2.2
          v := copyX (incY (backgroundV ppu)) ppu.t } := by
  rw [renderLine, if_pos h]
  rfl

/-- A byte of the frame (R456, R457). -/
theorem frameByte_eq (ppu : Ppu) (row : Nat) {sx : Nat} (hsx : sx < 256) :
    let k := 3 * (256 * row + sx)
    (frameByte ppu k, frameByte ppu (k + 1), frameByte ppu (k + 2)) =
      (match framePixel ppu row sx with
       | some colour => Config.nesPalette colour
       | none => (0, 0, 0)) := by
  have hplace : ∀ j < 3, (3 * (256 * row + sx) + j) / 3 / 256 = row ∧ (3 * (256 * row + sx) + j) / 3 % 256 = sx ∧
      (3 * (256 * row + sx) + j) % 3 = j := by omega
  obtain ⟨hrow0, hcol0, hbyte0⟩ := hplace 0 (by decide)
  obtain ⟨hrow1, hcol1, hbyte1⟩ := hplace 1 (by decide)
  obtain ⟨hrow2, hcol2, hbyte2⟩ := hplace 2 (by decide)
  rw [Nat.add_zero] at hrow0 hcol0 hbyte0
  simp only [frameByte, hrow0, hcol0, hbyte0, hrow1, hcol1, hbyte1, hrow2, hcol2, hbyte2]
  cases framePixel ppu row sx <;> rfl

/-- Settles O58: a line is put in its row alone; with rendering on the columns give its colours and the hit. -/
theorem lineRendering : Obligations.LineRendering := by
  intro params cart ppu sl hsl
  refine ⟨fun hhidden => ?_, fun hshown => ?_, fun row sx hsx hrow => ⟨fun hhidden => ?_, fun hshown => ?_⟩,
    fun row sx hrow => ?_, ?_, fun row sx hsx => frameByte_eq ppu row hsx⟩
  · rw [renderLine_of_hidden hhidden, putLine_ppu]
    exact ⟨rfl, rfl⟩
  · rw [renderLine_of_rendering hshown, putLine_ppu]
    refine ⟨?_, rfl⟩
    rw [Bool.or_eq_true, lineColumns_any_spriteZero]
  · rw [renderLine_of_hidden hhidden, framePixel_putLine_of_shown hsl hrow, List.getElem?_replicate_of_lt hsx,
      colourOf_zero]
  · have hbg := List.getElem?_eq_getElem ((backgroundRow_length cart ppu).symm ▸ hsx)
    have hsp := List.getElem?_eq_getElem ((spriteRow_length cart ppu sl).symm ▸ hsx)
    refine ⟨_, _, hbg, hsp, ?_⟩
    rw [renderLine_of_rendering hshown, framePixel_putLine_of_shown hsl hrow, List.getElem?_map,
      (lineColumns_getElem? cart ppu sl sx (sx, _, _)).mpr ⟨hsx, rfl, hbg, hsp⟩, Option.map_some, colourOf_eq]
  · by_cases hshown : rendering ppu = true
    · rw [renderLine_of_rendering hshown, framePixel_putLine_of_not_shown hsl hrow]
      rfl
    · rw [renderLine_of_hidden (Bool.eq_false_iff.mpr hshown), framePixel_putLine_of_not_shown hsl hrow]
  · obtain ⟨v, s0hit, fb, hframe⟩ := renderLine_frame params cart sl ppu
    rw [hframe]

end Sys2Proof.Machine
end

section
/-! PROOFS. Loading an image, and the session it boots (R87 to R93, R500 to R505). -/

namespace Sys2Proof.Machine

open Sys2Proof.Claims

/-- A header byte by its index (R87). -/
theorem headerByte_eq (image : List Byte) (k : Nat) : headerByte image k = image.getD k 0 := by
  rw [headerByte, List.headD_eq_head?_getD, List.head?_drop, List.getD_eq_getElem?_getD]

/-- The mapper number is 0 exactly if both header nibbles are (R88). -/
theorem headerMapper_eq_zero (h6 h7 : Byte) : headerMapper h6 h7 = 0 ↔ h6.toNat / 16 = 0 ∧ h7.toNat / 16 = 0 := by
  have hlow : h6 >>> 4 = 0 ↔ h6.toNat / 16 = 0 := by
    rw [BitVec.toNat_eq, BitVec.toNat_ushiftRight, Nat.shiftRight_eq_div_pow]
    rfl
  have hhigh : ∀ b : Byte, b &&& 0xF0 = 0 ↔ b.toNat / 16 = 0 := by decide +kernel
  have hor : ((h7 &&& 0xF0) ||| (h6 >>> 4)).toNat = 0 ↔ (h7 &&& 0xF0) ||| (h6 >>> 4) = 0 :=
    (BitVec.toNat_eq (y := 0#8)).symm
  rw [headerMapper, hor, and_comm, ← hlow, ← hhigh]
  exact BitVec.or_eq_zero_iff

/-- What an image must be for mapper 0 to load it (R89 to R92). -/
def imageAccepted (image : List Byte) : Prop :=
  image.take 4 = magicBytes ∧ (imageCartridge image).mapper = 0 ∧
    ((imageCartridge image).prgPages = 1 ∨ (imageCartridge image).prgPages = 2) ∧ (imageCartridge image).chrPages ≤ 1 ∧
    bodyStart (headerByte image 6) + (imageCartridge image).prgPages * 16384 + (imageCartridge image).chrPages * 8192 ≤
      image.length

/-- Loading faults on a bad magic alone (R504). -/
theorem parseImage_fault_iff (image : List Byte) : (∃ r, parseImage image = .fault r) ↔ image.take 4 ≠ magicBytes := by
  unfold parseImage
  dsimp only
  split
  next hmagic => exact ⟨fun _ => hmagic, fun _ => ⟨_, rfl⟩⟩
  next hmagic =>
    refine ⟨fun ⟨r, h⟩ => ?_, fun h => absurd h hmagic⟩
    repeat' split at h
    all_goals cases h

/-- An accepted image gives its cartridge, and no other image gives one (R89 to R92). -/
theorem parseImage_next_iff (image : List Byte) (cart : Cartridge) :
    parseImage image = .next cart ↔ imageAccepted image ∧ cart = imageCartridge image := by
  unfold parseImage imageAccepted
  dsimp only
  constructor
  · intro h
    split at h
    next => cases h
    next hmagic =>
    split at h
    next => cases h
    next hmapper =>
    split at h
    next => cases h
    next hprg =>
    split at h
    next => cases h
    next hchr =>
    split at h
    next => cases h
    next hlength =>
      obtain rfl := Host.Outcome.next.inj h
      exact ⟨⟨not_ne_iff.mp hmagic, not_ne_iff.mp hmapper, by omega, Nat.not_lt.mp hchr, Nat.not_lt.mp hlength⟩, rfl⟩
  · rintro ⟨⟨hmagic, hmapper, hprg, hchr, hlength⟩, rfl⟩
    rw [if_neg (not_ne_iff.mpr hmagic), if_neg (not_ne_iff.mpr hmapper), if_neg (by omega), if_neg (by omega),
      if_neg (by omega)]

/-- The cartridge of an accepted image satisfies the cartridge's invariant. -/
theorem imageCartridge_ok {image : List Byte} (h : imageAccepted image) : (imageCartridge image).ok = true := by
  obtain ⟨-, hmapper, hprg, hchr, -⟩ := h
  have hprgOk : (imageCartridge image).prg.ok ((imageCartridge image).prgPages * 0x4000) = true :=
    drawn_ok _ (Nat.le_refl _)
  have hchrOk : (imageCartridge image).chr.ok 0x2000 = true := by
    have hsize : (imageCartridge image).chrPages * 8192 ≤ 0x2000 := by omega
    exact drawn_ok _ hsize
  simp only [Cartridge.ok, hmapper, hprgOk, hchrOk, Bool.and_eq_true, Bool.or_eq_true, beq_iff_eq, decide_eq_true_eq,
    and_true, true_and]
  exact ⟨hprg, hchr⟩

/-- The program ROM of an image (R87, R92). -/
theorem imageCartridge_prg_read (image : List Byte) {k : Nat} (h : k < (imageCartridge image).prgPages * 16384) :
    (imageCartridge image).prg.read k = image.getD (bodyStart (headerByte image 6) + k) 0 := by
  have hread := drawn_read ((imageCartridge image).prgPages * 16384) (image.drop (bodyStart (headerByte image 6))) h
  rw [List.getD_eq_getElem?_getD, List.getElem?_drop, ← List.getD_eq_getElem?_getD] at hread
  exact hread

/-- The CHR-ROM of an image (R92). -/
theorem imageCartridge_chr_read (image : List Byte) {k : Nat} (h : k < (imageCartridge image).chrPages * 8192) :
    (imageCartridge image).chr.read k =
      image.getD (bodyStart (headerByte image 6) + (imageCartridge image).prgPages * 16384 + k) 0 := by
  have hread := drawn_read ((imageCartridge image).chrPages * 8192)
    ((image.drop (bodyStart (headerByte image 6))).drop ((imageCartridge image).prgPages * 16384)) h
  rw [List.getD_eq_getElem?_getD, List.getElem?_drop, List.getElem?_drop, ← Nat.add_assoc,
    ← List.getD_eq_getElem?_getD] at hread
  exact hread

/-- Settles O60: the checks of the loader in order, and the bodies it cuts from the image. -/
theorem imageLoading : Obligations.ImageLoading := by
  intro image
  simp only [← headerByte_eq]
  have haccepted : (∃ cart, parseImage image = .next cart) ↔ imageAccepted image := by
    simp only [parseImage_next_iff, exists_and_left, exists_eq, and_true]
  refine ⟨parseImage_fault_iff image, haccepted.trans ?_, fun cart hcart => ?_⟩
  · have hmapper := headerMapper_eq_zero (headerByte image 6) (headerByte image 7)
    rw [← and_assoc (a := (headerByte image 6).toNat / 16 = 0), ← hmapper]
    rfl
  · obtain ⟨haccept, rfl⟩ := (parseImage_next_iff image cart).mp hcart
    exact ⟨imageCartridge_ok haccept, rfl, rfl, rfl,
      fun k hk => (imageCartridge_prg_read image hk).trans (headerByte_eq image _).symm,
      fun k hk => (imageCartridge_chr_read image hk).trans (headerByte_eq image _).symm⟩

/-- `reset()` and `start()` whole (R501, R502). -/
theorem start_cpuReset (s : State) :
    start (cpuReset s) = { s with
      a := 0, x := 0, y := 0, sp := 0xFD, totalCycles := 7, halted := false, nmiPending := false, irqPending := false
      p := { n := false, v := false, d := false, i := true, z := false, c := false }
      pc := w16 (rom s 0xFFFD) (rom s 0xFFFC), phase := .running } := by
  have hvector : read16 resetVector (cpuReset s) =
      (w16 (rom (cpuReset s) 0xFFFD) (rom (cpuReset s) 0xFFFC), cpuReset s) := by
    have hlo : memRead resetVector (cpuReset s) = (rom (cpuReset s) 0xFFFC, cpuReset s) := memRead_eq_rom (by decide) _
    have hhi : memRead (resetVector + 1) (cpuReset s) = (rom (cpuReset s) 0xFFFD, cpuReset s) :=
      memRead_eq_rom (by decide) _
    rw [read16, hlo, hhi]
  rw [start, hvector]
  rfl

/-- Power-on with an accepted cartridge satisfies the session invariant. -/
theorem powerOn_ok (params : Params) {cart : Cartridge} (d : PowerOnDraws) (h : cart.ok = true) :
    (powerOn params cart d).ok = true := by
  have hcart : (powerOn params cart d).cart.ok = true := by
    unfold powerOn
    dsimp only
    split
    · simp only [Cartridge.ok, Bool.and_eq_true] at h ⊢
      exact ⟨h.1, drawn_ok _ (Nat.le_refl _)⟩
    · exact h
  have hciram : (drawn (ciramSize cart.mirroring) d.ciram).ok 0x1000 = true := by
    refine drawn_ok _ ?_
    cases cart.mirroring <;> decide
  refine (State.ok_iff _).mpr ⟨drawn_ok _ (Nat.le_refl _), drawn_ok _ (Nat.le_refl _), hcart, (Ppu.ok_iff _).mpr ?_⟩
  exact ⟨Nat.zero_lt_succ 340, Nat.zero_lt_succ 261, rfl, drawn_ok _ (Nat.le_refl _), drawn_palette_ok d.palette,
    hciram, rfl⟩

/-- The palette as drawn, six bits of each byte (R49). -/
theorem drawn_palette_read (bytes : List Byte) {k : Nat} (h : k < 0x20) :
    ((drawn 0x20 (bytes.map (· &&& 0x3F))).read k).toNat = (bytes.getD k 0).toNat % 64 := by
  have hmap : (bytes.map (· &&& 0x3F)).getD k 0 = bytes.getD k 0 &&& 0x3F :=
    List.getD_map (d := (0 : Byte)) _ (· &&& 0x3F)
  rw [drawn_read _ _ h, hmap, sixBits_eq, BitVec.toNat_ofNat]
  omega

/-- The size of nametable RAM (R49). -/
theorem ciramSize_eq (m : Mirroring) : ciramSize m = if m = .fourScreen then 0x1000 else 0x800 := by
  cases m <;> rfl

/-- The boot of an accepted image (R503, D43). -/
theorem boot_eq {params : Params} {image : List Byte} {cart : Cartridge} (h : parseImage image = .next cart)
    (d : PowerOnDraws) (entry : Option Addr) :
    boot params image d entry = .next { start (cpuReset (powerOn params cart d)) with
      pc := entry.getD (start (cpuReset (powerOn params cart d))).pc } := by
  rw [boot, h]
  cases entry <;> rfl

/-- Settles O59: reset and start by their one bus access; the boot from the stores as drawn. -/
theorem resetAndBoot : Obligations.ResetAndBoot := by
  refine ⟨fun s => ⟨start_cpuReset s, rfl⟩, fun params image d cart entry hparse => ?_⟩
  obtain ⟨haccept, hcart⟩ := (parseImage_next_iff image cart).mp hparse
  have hok : (powerOn params cart d).ok = true := powerOn_ok params d (hcart ▸ imageCartridge_ok haccept)
  have hpack : Flags.atReset.pack false = 0x24 := by decide
  rw [boot_eq hparse, start_cpuReset]
  refine ⟨_, rfl, hok, rfl, rfl, rfl, rfl, hpack, rfl, rfl, rfl, rfl, rfl, rfl, rfl, fun k hk => drawn_read _ _ hk,
    fun k hk => drawn_read _ _ hk, fun k hk => drawn_read _ _ hk, fun k hk => drawn_palette_read _ hk,
    fun k hk => drawn_read _ _ (ciramSize_eq cart.mirroring ▸ hk), ?_, fun hrom => ?_, fun hram k hk => ?_, rfl, rfl⟩
  · simp only [powerOn]
    split <;> rfl
  · exact if_neg hrom
  · have hchr : (powerOn params cart d).cart = { cart with chr := drawn 0x2000 d.chrRam } := if_pos hram
    exact (congrArg (fun c : Cartridge => c.chr.read k) hchr).trans (drawn_read _ _ hk)

end Sys2Proof.Machine
end
